-- ==== Sys2Proof/Word.lean ====
section
/-! DEFINITION. The word types of the core: what 10_state.md and 30_encoding.md give as bits is a bit vector, what they
give as a number that selects or counts is a bounded number. -/

namespace Sys2Proof

/-- One byte: a general register, a timer, a memory byte, the immediate `nn` (R30, R41, R49, R102). -/
abbrev Byte := BitVec 8

/-- A 16-bit word: `PC`, `I`, a stack entry, an opcode (R33, R37, R39, R100). -/
abbrev Word := BitVec 16

/-- The 12-bit address field `nnn` (R102). -/
abbrev Addr12 := BitVec 12

/-- The number of a general register, 0 to 15 (R30); a field `x` or `y` indexes the registers directly (R102). -/
abbrev Reg := Fin 16

/-- The sprite height `n`, a 4-bit unsigned count (R102). -/
abbrev Height := Fin 16

/-- The number of a key, 0 to 15 (R44). -/
abbrev Key := Fin 16

/-- `VF`, register 15 (R31). -/
abbrev VF : Reg := 15

/-- Zero extension to 16 bits, the spec's `zext_16` (R12, R102). -/
abbrev zext16 {w : Nat} (v : BitVec w) : Word := v.setWidth 16

end Sys2Proof
end

