-- ==== Sys2Proof/Machine/Flags.lean ====
section
/-! DEFINITION. The values that are written to VF as a flag (10_state.md R51): 0 or 1 in all eight bits. Each is computed on
unbounded numbers, as the spec's arithmetic is (R12). -/

namespace Sys2Proof.Machine

/-- A flag as VF holds it (R51). -/
def flagByte (b : Bool) : Byte := if b then 1 else 0

/-- The carry of `a + b` (R187). -/
def carryFlag (a b : Byte) : Byte := flagByte (255 < a.toNat + b.toNat)

/-- NOT borrow of `a - b` (R188, R190): 1 exactly when `a ≥ b`. -/
def notBorrowFlag (a b : Byte) : Byte := flagByte (b.toNat ≤ a.toNat)

/-- The bit a shift right by one shifts out, bit 0 (R189). -/
def shiftRightFlag (src : Byte) : Byte := flagByte (src.toNat % 2 = 1)

/-- The bit a shift left by one shifts out, bit 7 (R191). -/
def shiftLeftFlag (src : Byte) : Byte := flagByte (128 ≤ src.toNat)

/-- The overflow of `I + V[x]` beyond the 12-bit address space, on the unreduced sum (R212). -/
def indexOverflowFlag (i : Word) (a : Byte) : Byte := flagByte (0xFFF < i.toNat + a.toNat)

end Sys2Proof.Machine
end

