-- ==== Sys2Proof/Syntax.lean ====
section
/-! DEFINITION. The instructions: one constructor per row of spec/opcode_table.json, in the table's order (30_encoding.md
R110). Operands are the fields the row's pattern names (R100, R101). -/

namespace Sys2Proof

/-- The 35 instructions of R110. -/
inductive Instr where
  /-- 0nnn, SYS nnn (R161). -/
  | sysNnn (nnn : Addr12)
  /-- 00E0, CLS (R241). -/
  | cls
  /-- 00EE, RET (R153). -/
  | ret
  /-- 1nnn, JP nnn (R154). -/
  | jpNnn (nnn : Addr12)
  /-- 2nnn, CALL nnn (R155). -/
  | callNnn (nnn : Addr12)
  /-- 3xnn, SE Vx, nn (R156). -/
  | seVxNn (x : Reg) (nn : Byte)
  /-- 4xnn, SNE Vx, nn (R157). -/
  | sneVxNn (x : Reg) (nn : Byte)
  /-- 5xy0, SE Vx, Vy (R158). -/
  | seVxVy (x y : Reg)
  /-- 6xnn, LD Vx, nn (R181). -/
  | ldVxNn (x : Reg) (nn : Byte)
  /-- 7xnn, ADD Vx, nn (R182). -/
  | addVxNn (x : Reg) (nn : Byte)
  /-- 8xy0, LD Vx, Vy (R183). -/
  | ldVxVy (x y : Reg)
  /-- 8xy1, OR Vx, Vy (R184). -/
  | orVxVy (x y : Reg)
  /-- 8xy2, AND Vx, Vy (R185). -/
  | andVxVy (x y : Reg)
  /-- 8xy3, XOR Vx, Vy (R186). -/
  | xorVxVy (x y : Reg)
  /-- 8xy4, ADD Vx, Vy (R187). -/
  | addVxVy (x y : Reg)
  /-- 8xy5, SUB Vx, Vy (R188). -/
  | subVxVy (x y : Reg)
  /-- 8xy6, SHR Vx, Vy (R189). -/
  | shrVxVy (x y : Reg)
  /-- 8xy7, SUBN Vx, Vy (R190). -/
  | subnVxVy (x y : Reg)
  /-- 8xyE, SHL Vx, Vy (R191). -/
  | shlVxVy (x y : Reg)
  /-- 9xy0, SNE Vx, Vy (R159). -/
  | sneVxVy (x y : Reg)
  /-- Annn, LD I, nnn (R211). -/
  | ldINnn (nnn : Addr12)
  /-- Bnnn, JP V0, nnn (R160). -/
  | jpV0Nnn (nnn : Addr12)
  /-- Cxnn, RND Vx, nn (R192). -/
  | rndVxNn (x : Reg) (nn : Byte)
  /-- Dxyn, DRW Vx, Vy, n (R242). -/
  | drwVxVyN (x y : Reg) (n : Height)
  /-- Ex9E, SKP Vx (R262). -/
  | skpVx (x : Reg)
  /-- ExA1, SKNP Vx (R263). -/
  | sknpVx (x : Reg)
  /-- Fx07, LD Vx, DT (R267). -/
  | ldVxDt (x : Reg)
  /-- Fx0A, LD Vx, K (R266). -/
  | ldVxK (x : Reg)
  /-- Fx15, LD DT, Vx (R268). -/
  | ldDtVx (x : Reg)
  /-- Fx18, LD ST, Vx (R269). -/
  | ldStVx (x : Reg)
  /-- Fx1E, ADD I, Vx (R212). -/
  | addIVx (x : Reg)
  /-- Fx29, LD F, Vx (R213). -/
  | ldFVx (x : Reg)
  /-- Fx33, LD B, Vx (R214). -/
  | ldBVx (x : Reg)
  /-- Fx55, LD [I], Vx (R215). -/
  | ldMemVx (x : Reg)
  /-- Fx65, LD Vx, [I] (R216). -/
  | ldVxMem (x : Reg)
  deriving DecidableEq, Repr

end Sys2Proof
end

