-- ==== Sys2Proof/Decode.lean ====
section
/-! DEFINITION. The encoding (30_encoding.md): the fields of an opcode, the two-stage decoder, the opcode map as a table of
masks, and the encoder. -/

namespace Sys2Proof

/-! ## Byte order and fields -/

/-- The opcode of two bytes in memory order: the first is bits 15:8, the second bits 7:0 (R74). -/
def wordOfBytes (hi lo : Byte) : Word := BitVec.ofNat 16 (hi.toNat * 256 + lo.toNat)

/-- Bits 15:8 of an opcode, the byte at the lower address (R74). -/
def highByte (op : Word) : Byte := BitVec.ofNat 8 (op.toNat / 256)

/-- Bits 7:0 of an opcode, the byte at the higher address (R74). -/
def lowByte (op : Word) : Byte := BitVec.ofNat 8 op.toNat

/-- The primary tag `t = op[15:12]` (R100). -/
def fieldT (op : Word) : Nat := op.toNat / 4096

/-- `x = op[11:8]` (R100). -/
def fieldX (op : Word) : Fin 16 := Fin.ofNat 16 (op.toNat / 256)

/-- `y = op[7:4]` (R100). -/
def fieldY (op : Word) : Fin 16 := Fin.ofNat 16 (op.toNat / 16)

/-- `n = op[3:0]` (R100). -/
def fieldN (op : Word) : Fin 16 := Fin.ofNat 16 op.toNat

/-- `nn = op[7:0]` (R100). -/
def fieldNN (op : Word) : Byte := BitVec.ofNat 8 op.toNat

/-- `nnn = op[11:0]` (R100). -/
def fieldNNN (op : Word) : Addr12 := BitVec.ofNat 12 op.toNat

/-! ## The decoder -/

/-- The verdict on one opcode (R104): one of the 35 instructions, or unsupported. -/
inductive Decoded where
  | instr (i : Instr)
  | unsupported (op : Word)
  deriving DecidableEq, Repr

/-- Tag 0: the exact words 00E0 and 00EE are tested first, every other word is SYS (R103). -/
def decodeTag0 (op : Word) : Decoded :=
  if op = 0x00E0#16 then .instr .cls
  else if op = 0x00EE#16 then .instr .ret
  else .instr (.sysNnn (fieldNNN op))

/-- Tag 5: only the low nibble 0 is an instruction (R103, R112). -/
def decodeTag5 (op : Word) : Decoded :=
  match (fieldN op).val with
  | 0x0 => .instr (.seVxVy (fieldX op) (fieldY op))
  | _ => .unsupported op

/-- Tag 8: the arithmetic and logic family, sub-classified by the low nibble (R103, R112). -/
def decodeTag8 (op : Word) : Decoded :=
  match (fieldN op).val with
  | 0x0 => .instr (.ldVxVy (fieldX op) (fieldY op))
  | 0x1 => .instr (.orVxVy (fieldX op) (fieldY op))
  | 0x2 => .instr (.andVxVy (fieldX op) (fieldY op))
  | 0x3 => .instr (.xorVxVy (fieldX op) (fieldY op))
  | 0x4 => .instr (.addVxVy (fieldX op) (fieldY op))
  | 0x5 => .instr (.subVxVy (fieldX op) (fieldY op))
  | 0x6 => .instr (.shrVxVy (fieldX op) (fieldY op))
  | 0x7 => .instr (.subnVxVy (fieldX op) (fieldY op))
  | 0xE => .instr (.shlVxVy (fieldX op) (fieldY op))
  | _ => .unsupported op

/-- Tag 9: only the low nibble 0 is an instruction (R103, R112). -/
def decodeTag9 (op : Word) : Decoded :=
  match (fieldN op).val with
  | 0x0 => .instr (.sneVxVy (fieldX op) (fieldY op))
  | _ => .unsupported op

/-- Tag E: the key tests, by the low byte (R103, R112). -/
def decodeTagE (op : Word) : Decoded :=
  match (fieldNN op).toNat with
  | 0x9E => .instr (.skpVx (fieldX op))
  | 0xA1 => .instr (.sknpVx (fieldX op))
  | _ => .unsupported op

/-- Tag F: nine instructions, by the low byte (R103, R112). -/
def decodeTagF (op : Word) : Decoded :=
  match (fieldNN op).toNat with
  | 0x07 => .instr (.ldVxDt (fieldX op))
  | 0x0A => .instr (.ldVxK (fieldX op))
  | 0x15 => .instr (.ldDtVx (fieldX op))
  | 0x18 => .instr (.ldStVx (fieldX op))
  | 0x1E => .instr (.addIVx (fieldX op))
  | 0x29 => .instr (.ldFVx (fieldX op))
  | 0x33 => .instr (.ldBVx (fieldX op))
  | 0x55 => .instr (.ldMemVx (fieldX op))
  | 0x65 => .instr (.ldVxMem (fieldX op))
  | _ => .unsupported op

/-- Decoding an opcode by its top nibble, then within the tags that need it (R103, R104). Total: every word has a verdict. -/
def decodeWord (op : Word) : Decoded :=
  match fieldT op with
  | 0x0 => decodeTag0 op
  | 0x1 => .instr (.jpNnn (fieldNNN op))
  | 0x2 => .instr (.callNnn (fieldNNN op))
  | 0x3 => .instr (.seVxNn (fieldX op) (fieldNN op))
  | 0x4 => .instr (.sneVxNn (fieldX op) (fieldNN op))
  | 0x5 => decodeTag5 op
  | 0x6 => .instr (.ldVxNn (fieldX op) (fieldNN op))
  | 0x7 => .instr (.addVxNn (fieldX op) (fieldNN op))
  | 0x8 => decodeTag8 op
  | 0x9 => decodeTag9 op
  | 0xA => .instr (.ldINnn (fieldNNN op))
  | 0xB => .instr (.jpV0Nnn (fieldNNN op))
  | 0xC => .instr (.rndVxNn (fieldX op) (fieldNN op))
  | 0xD => .instr (.drwVxVyN (fieldX op) (fieldY op) (fieldN op))
  | 0xE => decodeTagE op
  | 0xF => decodeTagF op
  | _ => .unsupported op

/-- The verdict on a sequence of bytes: an instruction and the bytes after it, an unsupported word and the bytes after it, or
fewer than the two bytes every instruction has (R100). -/
inductive DecodedBytes where
  | instr (i : Instr) (rest : List Byte)
  | unsupported (op : Word) (rest : List Byte)
  | truncated
  deriving DecidableEq, Repr

/-- Decoding any bytes: two of them make an opcode, high byte first (R74, R100). -/
def decodeBytes : List Byte → DecodedBytes
  | hi :: lo :: rest =>
    match decodeWord (wordOfBytes hi lo) with
    | .instr i => .instr i rest
    | .unsupported op => .unsupported op rest
  | [_] => .truncated
  | [] => .truncated

/-- The instruction the decoder reads from the opcode-table word `w` of `nbits` bits, laid out as the core stores it: high
byte first (R74). Bits of the instruction above `nbits` are 0. -/
def decodeTableWord (nbits w : Nat) : Option Instr :=
  let op : Word := BitVec.ofNat 16 (w % 2 ^ min nbits 16)
  match decodeBytes [highByte op, lowByte op] with
  | .instr i _ => some i
  | .unsupported _ _ => none
  | .truncated => none

/-! ## The opcode map -/

/-- A row of the opcode map: a word `w` matches when `w &&& mask = value` (R110). -/
structure OpcodeRow where
  mask : Word
  value : Word
  build : Word → Instr

/-- Whether a word matches a row (R110). -/
def OpcodeRow.matchesWord (r : OpcodeRow) (op : Word) : Bool := op &&& r.mask = r.value

/-- Rows of R110 with tags 0 to 7; rows 2 and 3 stand before row 1, over which they take precedence. -/
def opcodeRowsLow : List OpcodeRow := [
  ⟨0xFFFF#16, 0x00E0#16, fun _ => .cls⟩,
  ⟨0xFFFF#16, 0x00EE#16, fun _ => .ret⟩,
  ⟨0xF000#16, 0x0000#16, fun op => .sysNnn (fieldNNN op)⟩,
  ⟨0xF000#16, 0x1000#16, fun op => .jpNnn (fieldNNN op)⟩,
  ⟨0xF000#16, 0x2000#16, fun op => .callNnn (fieldNNN op)⟩,
  ⟨0xF000#16, 0x3000#16, fun op => .seVxNn (fieldX op) (fieldNN op)⟩,
  ⟨0xF000#16, 0x4000#16, fun op => .sneVxNn (fieldX op) (fieldNN op)⟩,
  ⟨0xF00F#16, 0x5000#16, fun op => .seVxVy (fieldX op) (fieldY op)⟩,
  ⟨0xF000#16, 0x6000#16, fun op => .ldVxNn (fieldX op) (fieldNN op)⟩,
  ⟨0xF000#16, 0x7000#16, fun op => .addVxNn (fieldX op) (fieldNN op)⟩]

/-- Rows of R110 with tag 8. -/
def opcodeRowsAlu : List OpcodeRow := [
  ⟨0xF00F#16, 0x8000#16, fun op => .ldVxVy (fieldX op) (fieldY op)⟩,
  ⟨0xF00F#16, 0x8001#16, fun op => .orVxVy (fieldX op) (fieldY op)⟩,
  ⟨0xF00F#16, 0x8002#16, fun op => .andVxVy (fieldX op) (fieldY op)⟩,
  ⟨0xF00F#16, 0x8003#16, fun op => .xorVxVy (fieldX op) (fieldY op)⟩,
  ⟨0xF00F#16, 0x8004#16, fun op => .addVxVy (fieldX op) (fieldY op)⟩,
  ⟨0xF00F#16, 0x8005#16, fun op => .subVxVy (fieldX op) (fieldY op)⟩,
  ⟨0xF00F#16, 0x8006#16, fun op => .shrVxVy (fieldX op) (fieldY op)⟩,
  ⟨0xF00F#16, 0x8007#16, fun op => .subnVxVy (fieldX op) (fieldY op)⟩,
  ⟨0xF00F#16, 0x800E#16, fun op => .shlVxVy (fieldX op) (fieldY op)⟩]

/-- Rows of R110 with tags 9 to F. -/
def opcodeRowsHigh : List OpcodeRow := [
  ⟨0xF00F#16, 0x9000#16, fun op => .sneVxVy (fieldX op) (fieldY op)⟩,
  ⟨0xF000#16, 0xA000#16, fun op => .ldINnn (fieldNNN op)⟩,
  ⟨0xF000#16, 0xB000#16, fun op => .jpV0Nnn (fieldNNN op)⟩,
  ⟨0xF000#16, 0xC000#16, fun op => .rndVxNn (fieldX op) (fieldNN op)⟩,
  ⟨0xF000#16, 0xD000#16, fun op => .drwVxVyN (fieldX op) (fieldY op) (fieldN op)⟩,
  ⟨0xF0FF#16, 0xE09E#16, fun op => .skpVx (fieldX op)⟩,
  ⟨0xF0FF#16, 0xE0A1#16, fun op => .sknpVx (fieldX op)⟩,
  ⟨0xF0FF#16, 0xF007#16, fun op => .ldVxDt (fieldX op)⟩,
  ⟨0xF0FF#16, 0xF00A#16, fun op => .ldVxK (fieldX op)⟩,
  ⟨0xF0FF#16, 0xF015#16, fun op => .ldDtVx (fieldX op)⟩,
  ⟨0xF0FF#16, 0xF018#16, fun op => .ldStVx (fieldX op)⟩,
  ⟨0xF0FF#16, 0xF01E#16, fun op => .addIVx (fieldX op)⟩,
  ⟨0xF0FF#16, 0xF029#16, fun op => .ldFVx (fieldX op)⟩,
  ⟨0xF0FF#16, 0xF033#16, fun op => .ldBVx (fieldX op)⟩,
  ⟨0xF0FF#16, 0xF055#16, fun op => .ldMemVx (fieldX op)⟩,
  ⟨0xF0FF#16, 0xF065#16, fun op => .ldVxMem (fieldX op)⟩]

/-- The opcode map of R110. -/
def opcodeRows : List OpcodeRow := opcodeRowsLow ++ opcodeRowsAlu ++ opcodeRowsHigh

/-- Decoding by the first row of the opcode map that matches (R103, R110). -/
def decodeByRows (op : Word) : Decoded :=
  match opcodeRows.find? (fun r => r.matchesWord op) with
  | some r => .instr (r.build op)
  | none => .unsupported op

/-! ## The encoder -/

/-- Format NNN: `t : nnn` (R101). -/
def encodeNNN (t : Nat) (nnn : Addr12) : Word := BitVec.ofNat 16 (t * 4096 + nnn.toNat)

/-- Format XNN: `t : x : nn` (R101). -/
def encodeXNN (t : Nat) (x : Reg) (nn : Byte) : Word := BitVec.ofNat 16 (t * 4096 + x.val * 256 + nn.toNat)

/-- Formats XY and XYN: `t : x : y : n`, with the fixed sub-operation or the height in the low nibble (R101). -/
def encodeXYN (t : Nat) (x y : Reg) (n : Nat) : Word := BitVec.ofNat 16 (t * 4096 + x.val * 256 + y.val * 16 + n)

/-- Format X: `t : x : sub-op`, with a fixed low byte (R101). -/
def encodeX (t : Nat) (x : Reg) (sub : Nat) : Word := BitVec.ofNat 16 (t * 4096 + x.val * 256 + sub)

/-- The word of an instruction (R101, R110). -/
def encode : Instr → Word
  | .sysNnn nnn => encodeNNN 0x0 nnn
  | .cls => 0x00E0#16
  | .ret => 0x00EE#16
  | .jpNnn nnn => encodeNNN 0x1 nnn
  | .callNnn nnn => encodeNNN 0x2 nnn
  | .seVxNn x nn => encodeXNN 0x3 x nn
  | .sneVxNn x nn => encodeXNN 0x4 x nn
  | .seVxVy x y => encodeXYN 0x5 x y 0x0
  | .ldVxNn x nn => encodeXNN 0x6 x nn
  | .addVxNn x nn => encodeXNN 0x7 x nn
  | .ldVxVy x y => encodeXYN 0x8 x y 0x0
  | .orVxVy x y => encodeXYN 0x8 x y 0x1
  | .andVxVy x y => encodeXYN 0x8 x y 0x2
  | .xorVxVy x y => encodeXYN 0x8 x y 0x3
  | .addVxVy x y => encodeXYN 0x8 x y 0x4
  | .subVxVy x y => encodeXYN 0x8 x y 0x5
  | .shrVxVy x y => encodeXYN 0x8 x y 0x6
  | .subnVxVy x y => encodeXYN 0x8 x y 0x7
  | .shlVxVy x y => encodeXYN 0x8 x y 0xE
  | .sneVxVy x y => encodeXYN 0x9 x y 0x0
  | .ldINnn nnn => encodeNNN 0xA nnn
  | .jpV0Nnn nnn => encodeNNN 0xB nnn
  | .rndVxNn x nn => encodeXNN 0xC x nn
  | .drwVxVyN x y n => encodeXYN 0xD x y n.val
  | .skpVx x => encodeX 0xE x 0x9E
  | .sknpVx x => encodeX 0xE x 0xA1
  | .ldVxDt x => encodeX 0xF x 0x07
  | .ldVxK x => encodeX 0xF x 0x0A
  | .ldDtVx x => encodeX 0xF x 0x15
  | .ldStVx x => encodeX 0xF x 0x18
  | .addIVx x => encodeX 0xF x 0x1E
  | .ldFVx x => encodeX 0xF x 0x29
  | .ldBVx x => encodeX 0xF x 0x33
  | .ldMemVx x => encodeX 0xF x 0x55
  | .ldVxMem x => encodeX 0xF x 0x65

/-- The bytes of an instruction in memory order (R74). -/
def encodeBytes (i : Instr) : List Byte := [highByte (encode i), lowByte (encode i)]

end Sys2Proof
end

