-- ==== Sys2Proof/Config.lean ====
section
/-! DEFINITION. What the spec leaves to the implementation (00_scope.md R9): the parameters `P_*` as plain data, and the
free values as opaque constants, of which nothing can be proved. The defaults stand in Machine/Defaults.lean. -/

namespace Sys2Proof

/-- `P_SHIFT_SRC` (R9, D8): the register that 8xy6 and 8xyE shift. -/
inductive ShiftSrc where
  | vx
  | vy
  deriving DecidableEq, Repr

/-- `P_LOGIC_VF` (R9, D9): what 8xy1, 8xy2 and 8xy3 do to VF. -/
inductive LogicVF where
  | unchanged
  | reset
  deriving DecidableEq, Repr

/-- `P_LDST_I` (R9, D10): what Fx55 and Fx65 do to I. -/
inductive LdstI where
  | unchanged
  | increment
  deriving DecidableEq, Repr

/-- `P_FX1E_VF` (R9, D11): what Fx1E does to VF. -/
inductive Fx1eVF where
  | overflowFlag
  | unchanged
  deriving DecidableEq, Repr

/-- `P_KEYWAIT_PICK` (R9, D14): which key Fx0A stores when several keys go down in one snapshot. -/
inductive KeywaitPick where
  | lowest
  | any
  deriving DecidableEq, Repr

/-- `P_RESET_FILL` (R9, D1, D2): the construction value of what the source does not initialise. -/
inductive ResetFill where
  | zero
  | arbitrary
  deriving DecidableEq, Repr

/-- The parameters that an instruction reads. They are fixed for a machine: `State` carries them as a constant, so that a
claim about every state is a claim about every value of them (log entry 1). -/
structure Params where
  shiftSrc : ShiftSrc
  logicVF : LogicVF
  ldstI : LdstI
  fx1eVF : Fx1eVF
  keywaitPick : KeywaitPick
  deriving DecidableEq, Repr

/-- FREE VALUE. `RandomByte()` (R9, R192, D22): the n-th draw of the random oracle is any byte, and nothing relates two
draws (log entry 2). -/
opaque Config.randomByte : Nat → Byte

/-- FREE VALUE. Under `P_KEYWAIT_PICK = ANY` (R264, D14) the n-th pick among several key edges is any of them: the number is
reduced modulo how many there are (log entry 3). -/
opaque Config.keyPick : Nat → Nat

end Sys2Proof
end

