-- ==== Sys2Proof/Machine/Defaults.lean ====
section
/-! DEFINITION. The defaults of the parameters (00_scope.md R9) and the default font table (10_state.md R52). They stand in a
file of Machine/ so that a run on real hardware that shows another value can mend them. -/

namespace Sys2Proof

/-- The spec's defaults of the run-time parameters (R9; D8, D9, D10, D11, D14). DESIGN CHOICE, log entry 1: the source fixes
none of them, and the choice is the spec's own. -/
def Params.default : Params where
  shiftSrc := .vx
  logicVF := .unchanged
  ldstI := .unchanged
  fx1eVF := .overflowFlag
  keywaitPick := .lowest

namespace Machine

/-- The glyphs of the digits 0 to 7, five bytes each (R52). PRESUMED, log entry 8: the conventional CHIP-8 font. -/
def fontLow : List Byte :=
  [0xF0, 0x90, 0x90, 0x90, 0xF0] ++ [0x20, 0x60, 0x20, 0x20, 0x70] ++
  [0xF0, 0x10, 0xF0, 0x80, 0xF0] ++ [0xF0, 0x10, 0xF0, 0x10, 0xF0] ++
  [0x90, 0x90, 0xF0, 0x10, 0x10] ++ [0xF0, 0x80, 0xF0, 0x10, 0xF0] ++
  [0xF0, 0x80, 0xF0, 0x90, 0xF0] ++ [0xF0, 0x10, 0x20, 0x40, 0x40]

/-- The glyphs of the digits 8 to F, five bytes each (R52). PRESUMED, log entry 8. -/
def fontHigh : List Byte :=
  [0xF0, 0x90, 0xF0, 0x90, 0xF0] ++ [0xF0, 0x90, 0xF0, 0x10, 0xF0] ++
  [0xF0, 0x90, 0xF0, 0x90, 0x90] ++ [0xE0, 0x90, 0xE0, 0x90, 0xE0] ++
  [0xF0, 0x80, 0x80, 0x80, 0xF0] ++ [0xE0, 0x90, 0x90, 0x90, 0xE0] ++
  [0xF0, 0x80, 0xF0, 0x80, 0xF0] ++ [0xF0, 0x80, 0xF0, 0x80, 0x80]

/-- The default of `P_FONT`: 80 bytes, glyph d at 5d to 5d + 4 (R52). -/
def fontTable : List Byte := fontLow ++ fontHigh

end Machine
end Sys2Proof
end

