-- ==== Sys2Proof/Machine/State.lean ====
section
/-! DEFINITION. The state of the core as plain data (10_state.md), the outcomes of a step (60_exceptions.md R300, R305), the
reasons a step can stop, and the state after construction (10_state.md R53). -/

namespace Sys2Proof.Machine

/-- The causes of an AddressFault, in the order of their codes 0 to 5 (R305). -/
inductive FaultCause where
  | fetchRange
  | fetchMisaligned
  | readRange
  | writeRange
  | misalignedTarget
  | keyIndex
  deriving DecidableEq, Repr

/-- The fatal outcomes, which LATCH can hold (R18, R46, R300). -/
inductive FatalOutcome where
  | stackOverflow
  | stackUnderflow
  | addressFault (cause : FaultCause) (value : Word)
  deriving DecidableEq, Repr

/-- What a call of `step()` returns (R300). UnsupportedInstruction carries the opcode and is not fatal (R301). -/
inductive StepOutcome where
  | ok
  | unsupportedInstruction (op : Word)
  | fatal (f : FatalOutcome)
  deriving DecidableEq, Repr

/-- Memory as the list of the cells whose byte differs from the construction contents, addresses strictly rising (R49, R70;
log entry 7). `Memory.unlisted` says what every other address holds. -/
abbrev Memory := List Host.Cell

/-- The framebuffer, 64 columns of 32 pixels: `fb[x][y]` is the pixel in column x and row y (R43). -/
abbrev Framebuffer := Vector (Vector Bool 32) 64

/-- Everything the core holds (10_state.md R30 to R49, R53). -/
structure State where
  /-- `V[0]` to `V[15]` (R30). -/
  v : Vector Byte 16
  /-- `PC` (R33). -/
  pc : Word
  /-- `I` (R37). -/
  i : Word
  /-- `STACK[0]` to `STACK[15]` (R38, R39). -/
  stack : Vector Word 16
  /-- `SP`, how many stack entries are in use, 0 to 16 (R39). -/
  sp : Fin 17
  /-- `DT` (R41). -/
  dt : Byte
  /-- `ST` (R42). -/
  st : Byte
  /-- `FB` (R43). -/
  fb : Framebuffer
  /-- `KEYS`, the host's snapshot (R44). -/
  keys : Vector Bool 16
  /-- `PREV_KEYS`, the snapshot the previous executing step saw (R45). -/
  prevKeys : Vector Bool 16
  /-- `DRAW_FLAG` (R47). -/
  drawFlag : Bool
  /-- `CLEARED_FLAG` (R48). -/
  clearedFlag : Bool
  /-- `LATCH` (R46). -/
  latch : Option FatalOutcome
  /-- `M[0]` to `M[4095]` (R49). -/
  mem : Memory
  /-- What the last `step()` returned (R300); the interface's `next` has no other place for it (log entry 4). -/
  outcome : StepOutcome
  /-- THE MODEL'S OWN: the parameters of this machine, which nothing changes (R9, R54; log entry 1). -/
  params : Params
  /-- THE MODEL'S OWN: how many free values have been drawn (R192, R264; log entries 2 and 3). -/
  draws : Nat
  deriving DecidableEq, Repr

/-- The reasons the machine stops. -/
inductive Fault where
  /-- Raised by `step` alone, when LATCH is set: the step changes no state and returns the latched outcome, which is the
  payload (R130, R309; D5: a latched state is a fault, never a final success). Safe: the machine stops where the core
  only repeats itself. -/
  | latched (f : FatalOutcome)
  deriving DecidableEq, Repr

/-- The reasons the model gives no meaning. -/
inductive Refusal where
  /-- Raised by an arm of `exec` whose instruction has no meaning yet; no arm of this model is left so. Safe. -/
  | notModelled (mnemonic : String)
  /-- Raised by the host interface for a `load` after the engine exists, to which the spec gives no meaning (R85, D25). Safe. -/
  | loadAfterEngine
  /-- Raised by the host interface for an operation at a time R320 does not allow. Safe. -/
  | hostOperationOutOfOrder
  deriving DecidableEq, Repr

/-- The core right after construction with the default parameters and no ROM loaded (R53, R331, R332). `PC`, `SP`, `FB`, the
keypad, the flags and LATCH are the spec's; the zeros of `V`, `I`, `DT`, `ST` (log entry 5), of the unused stack entries (log
entry 6) and of `draws`, and `outcome` (log entries 2 and 4) are DESIGN CHOICE. -/
def State.reset : State where
  v := Vector.replicate 16 0
  pc := 512#16
  i := 0
  stack := Vector.replicate 16 0
  sp := 0
  dt := 0
  st := 0
  fb := Vector.replicate 64 (Vector.replicate 32 false)
  keys := Vector.replicate 16 false
  prevKeys := Vector.replicate 16 false
  drawFlag := false
  clearedFlag := false
  latch := none
  mem := []
  outcome := .ok
  params := Params.default
  draws := 0

end Sys2Proof.Machine
end

