-- ==== Sys2Proof/Machine/Ops.lean ====
section
/-! DEFINITION. The operations every meaning is written over: the outcome codes, memory, the registers and other state, the
stack, ending an instruction (completing it or raising an outcome), and the parts of a step around the instruction. -/

namespace Sys2Proof.Machine

/-! ## Outcome codes -/

/-- The code of an AddressFault cause (R305). -/
def FaultCause.code : FaultCause → Nat
  | .fetchRange => 0
  | .fetchMisaligned => 1
  | .readRange => 2
  | .writeRange => 3
  | .misalignedTarget => 4
  | .keyIndex => 5

/-- The code of an outcome (R300). -/
def StepOutcome.code : StepOutcome → Nat
  | .ok => 0
  | .unsupportedInstruction _ => 1
  | .fatal .stackOverflow => 2
  | .fatal .stackUnderflow => 3
  | .fatal (.addressFault _ _) => 4

/-- The fatal outcome an outcome is, if it is one (R300, R136). -/
def StepOutcome.fatal? : StepOutcome → Option FatalOutcome
  | .ok => none
  | .unsupportedInstruction _ => none
  | .fatal f => some f

/-! ## Memory -/

/-- The size of the address space (R8, R70). -/
def memSize : Nat := 4096

/-- What an address that memory does not list holds: the construction contents, the font in 0 to 79 and 0 elsewhere (R53,
R331; log entries 7 and 8). -/
def Memory.unlisted (a : Nat) : Byte := fontTable.getD a 0

/-- `M[a]`: reading one byte. The list is in rising order, so the search ends at the first higher address. -/
def Memory.read : Memory → Nat → Byte
  | [], a => Memory.unlisted a
  | (k, b) :: rest, a => if k = a then b else if a < k then Memory.unlisted a else Memory.read rest a

/-- Taking an address out of the list, so that it holds its construction contents. -/
def Memory.erase : Memory → Nat → Memory
  | [], _ => []
  | (k, b) :: rest, a => if k = a then rest else if a < k then (k, b) :: rest else (k, b) :: Memory.erase rest a

/-- Listing an address with a byte. -/
def Memory.insert : Memory → Nat → Byte → Memory
  | [], a, v => [(a, v)]
  | (k, b) :: rest, a, v =>
    if k = a then (a, v) :: rest else if a < k then (a, v) :: (k, b) :: rest else (k, b) :: Memory.insert rest a v

/-- `M[a] <- v`: writing one byte, keeping the canonical form. -/
def Memory.write (m : Memory) (a : Nat) (v : Byte) : Memory :=
  if v = Memory.unlisted a then m.erase a else m.insert a v

/-- The canonical form from address `lo` on: rising addresses of the address space, no byte that an unlisted address would
hold. -/
def Memory.wfFrom : Nat → Memory → Bool
  | _, [] => true
  | lo, (k, b) :: rest => lo ≤ k && k < memSize && b != Memory.unlisted k && Memory.wfFrom (k + 1) rest

/-- The canonical form of memory: equal memories are equal lists. -/
def Memory.wf (m : Memory) : Bool := Memory.wfFrom 0 m

/-- The `k` bytes from address `a` on. -/
def Memory.readBytes (m : Memory) (a k : Nat) : List Byte := (List.range k).map (fun j => m.read (a + j))

/-- Storing a list of bytes from address `a` on, the first at `a`. -/
def Memory.writeBytes (m : Memory) (a : Nat) : List Byte → Memory
  | [] => m
  | b :: bs => Memory.writeBytes (m.write a b) (a + 1) bs

/-- Whether an access of `k` bytes at `a` lies in the address space (R15, R72); an access of no byte always does. -/
def accessInRange (a k : Nat) : Bool := decide (k = 0 ∨ a + k ≤ memSize)

/-! ## State updates -/

namespace State

/-- `V[x]` (R13). -/
def getV (s : State) (x : Reg) : Byte := s.v[x]

/-- `V[x] <- b` (R13). -/
def setV (s : State) (x : Reg) (b : Byte) : State := { s with v := s.v.set x b }

/-- The whole register file. -/
def setRegs (s : State) (v : Vector Byte 16) : State := { s with v := v }

/-- `PC <- w`. -/
def setPc (s : State) (w : Word) : State := { s with pc := w }

/-- `I <- w`. -/
def setI (s : State) (w : Word) : State := { s with i := w }

/-- The stack and its cursor. -/
def setStack (s : State) (stack : Vector Word 16) (sp : Fin 17) : State := { s with stack := stack, sp := sp }

/-- `DT <- b`. -/
def setDt (s : State) (b : Byte) : State := { s with dt := b }

/-- `ST <- b`. -/
def setSt (s : State) (b : Byte) : State := { s with st := b }

/-- The whole framebuffer. -/
def setFb (s : State) (fb : Framebuffer) : State := { s with fb := fb }

/-- `KEYS <- k`. -/
def setKeyState (s : State) (k : Vector Bool 16) : State := { s with keys := k }

/-- `PREV_KEYS <- k`. -/
def setPrevKeys (s : State) (k : Vector Bool 16) : State := { s with prevKeys := k }

/-- `DRAW_FLAG <- b`. -/
def setDrawFlag (s : State) (b : Bool) : State := { s with drawFlag := b }

/-- `CLEARED_FLAG <- b`. -/
def setClearedFlag (s : State) (b : Bool) : State := { s with clearedFlag := b }

/-- `LATCH <- l`. -/
def setLatch (s : State) (l : Option FatalOutcome) : State := { s with latch := l }

/-- The whole of memory. -/
def setMem (s : State) (m : Memory) : State := { s with mem := m }

/-- The outcome the step returns. -/
def setOutcome (s : State) (o : StepOutcome) : State := { s with outcome := o }

/-- One more free value has been drawn. -/
def countDraw (s : State) : State := { s with draws := s.draws + 1 }

/-! ## Memory accesses -/

/-- `MemRead(a, k)` (R15, R72): the bytes, or the AddressFault it raises. -/
def memRead (s : State) (a : Word) (k : Nat) : Except FatalOutcome (List Byte) :=
  if accessInRange a.toNat k then .ok (s.mem.readBytes a.toNat k) else .error (.addressFault .readRange a)

/-- `MemWrite(a, k, bytes)` with k the number of bytes (R15, R72): the state with the bytes stored, or the AddressFault it
raises. -/
def memWrite (s : State) (a : Word) (bytes : List Byte) : Except FatalOutcome State :=
  if accessInRange a.toNat bytes.length then .ok (s.setMem (s.mem.writeBytes a.toNat bytes))
  else .error (.addressFault .writeRange a)

/-! ## The stack -/

/-- `Push(w)` (R40): StackOverflow when 16 entries are in use. -/
def push (s : State) (w : Word) : Except FatalOutcome State :=
  if h : s.sp.val < 16 then .ok (s.setStack (s.stack.set s.sp.val w h) ⟨s.sp.val + 1, by omega⟩)
  else .error .stackOverflow

/-- `Pop()` (R40): StackUnderflow when none is in use; otherwise the top entry and the state with the cursor moved. -/
def pop (s : State) : Except FatalOutcome (Word × State) :=
  if h : 0 < s.sp.val then
    .ok (s.stack[s.sp.val - 1]'(by omega), s.setStack s.stack ⟨s.sp.val - 1, by omega⟩)
  else .error .stackUnderflow

/-! ## Free values -/

/-- `RandomByte()` (R15, R192): the next draw of the oracle, and the state that has counted it. -/
def randomByte (s : State) : Byte × State := (Config.randomByte s.draws, s.countDraw)

/-! ## How an instruction ends -/

/-- The instruction completes, and the outcome is Ok (R134). -/
def complete (s : State) : Host.Outcome State Fault Refusal := .next (s.setOutcome .ok)

/-- `raise O(info)` (R15, R137): the instruction ends with outcome `o` and changes nothing else; `finish` sets the latch. -/
def raise (s : State) (o : StepOutcome) : Host.Outcome State Fault Refusal := .next (s.setOutcome o)

/-- Raising a fatal outcome. -/
def raiseFatal (s : State) (f : FatalOutcome) : Host.Outcome State Fault Refusal := s.raise (.fatal f)

/-- `skip` when a condition holds: PC moves over the next word, which is not looked at (R15, R152). -/
def skipIf (s : State) (c : Bool) : State := if c then s.setPc (s.pc + 2) else s

/-! ## The parts of a step around the instruction -/

/-- The fetch check (R131): the fault of a fetch beyond memory, then that of an odd PC. -/
def fetchFault (s : State) : Option FatalOutcome :=
  if 0xFFE < s.pc.toNat then some (.addressFault .fetchRange s.pc)
  else if s.pc.toNat % 2 = 1 then some (.addressFault .fetchMisaligned s.pc)
  else none

/-- The fetched opcode, `M[PC] : M[PC + 1]` (R132). -/
def fetchWord (s : State) : Word := wordOfBytes (s.mem.read s.pc.toNat) (s.mem.read (s.pc.toNat + 1))

/-- The fetch's advance of PC (R132). -/
def advancePc (s : State) : State := s.setPc (s.pc + 2)

/-- The finish of a step (R136): PREV_KEYS takes KEYS, and a fatal outcome is latched. -/
def finish (s : State) : State :=
  let s' := s.setPrevKeys s.keys
  match s.outcome.fatal? with
  | some f => s'.setLatch (some f)
  | none => s'

end State
end Sys2Proof.Machine
end

