-- ==== Sys2Proof/Machine/Operands.lean ====
section
/-! DEFINITION. The operand forms and address computations of the instructions: the shifted operand, transfer targets, key
numbers and key edges, glyph addresses, decimal digits, and the register block of Fx55 and Fx65. -/

namespace Sys2Proof.Machine

/-- The fault of a transfer to an odd target, `CheckTarget` (R151). -/
def targetFault (tgt : Word) : Option FatalOutcome :=
  if tgt.toNat % 2 = 1 then some (.addressFault .misalignedTarget tgt) else none

/-- The hundreds, tens and ones of a byte (R214). -/
def decimalDigits (b : Byte) : List Byte :=
  [BitVec.ofNat 8 (b.toNat / 100), BitVec.ofNat 8 (b.toNat / 10 % 10), BitVec.ofNat 8 (b.toNat % 10)]

/-- The address of the glyph of a number, `FONT_BASE + 5 * V[x]` with FONT_BASE = 0, unmasked (R213). -/
def glyphAddress (b : Byte) : Word := BitVec.ofNat 16 (5 * b.toNat)

namespace State

/-- The operand that 8xy6 and 8xyE shift (R189, R191; P_SHIFT_SRC). -/
def shiftOperand (s : State) (x y : Reg) : Byte :=
  match s.params.shiftSrc with
  | .vx => s.getV x
  | .vy => s.getV y

/-- The target of Bnnn, `zext_16(nnn) + zext_16(V[0])` (R160). -/
def offsetTarget (s : State) (nnn : Addr12) : Word := zext16 nnn + zext16 (s.getV 0)

/-- `KeyDown(v)` (R261): the key's state, or the fault of a number above 15. -/
def keyDown (s : State) (v : Byte) : Except FatalOutcome Bool :=
  if h : v.toNat < 16 then .ok s.keys[v.toNat] else .error (.addressFault .keyIndex (zext16 v))

/-- `EDGES`: the keys that are down now and were up at the previous step, in rising order (R264). -/
def edges (s : State) : List Key := (List.finRange 16).filter (fun k => s.keys[k] && !s.prevKeys[k])

/-- The key that Fx0A stores when `k :: ks` are the edges (R264, R266; P_KEYWAIT_PICK), and the state after the choice: the
lowest, or under ANY a member that a free value picks (log entry 3). -/
def pickKey (s : State) (k : Key) (ks : List Key) : Key × State :=
  match s.params.keywaitPick with
  | .lowest => (k, s)
  | .any => ((k :: ks).getD (Config.keyPick s.draws % (ks.length + 1)) k, s.countDraw)

/-- `V[0]` to `V[x]`, the bytes Fx55 stores (R215). -/
def regBlock (s : State) (x : Reg) : List Byte := s.v.toList.take (x.val + 1)

/-- `V[j] <- bytes[j]` for every j that `bytes` has (R216). -/
def loadRegBlock (s : State) (bytes : List Byte) : State :=
  s.setRegs (Vector.ofFn (fun (j : Fin 16) => bytes.getD j.val s.v[j]))

/-- `VF <- 0` when P_LOGIC_VF = RESET (R184 to R186). -/
def logicFlag (s : State) : State :=
  match s.params.logicVF with
  | .unchanged => s
  | .reset => s.setV VF 0

/-- The write of I after Fx55 or Fx65 of `V[0]` to `V[x]`: `(I + x + 1) mod 65536` when P_LDST_I = INCREMENT (R215, R216). -/
def bumpIndex (s : State) (x : Reg) : State :=
  match s.params.ldstI with
  | .unchanged => s
  | .increment => s.setI (s.i + BitVec.ofNat 16 (x.val + 1))

end State
end Sys2Proof.Machine
end

