-- ==== Sys2Proof/Machine/Alu.lean ====
section
/-! DEFINITION. Register, arithmetic, logic and random instructions (42_alu.md). Operands are read before any write, the
result is written first and the flag last, so with x = 15 VF ends up holding the flag (R31, R180). -/

namespace Sys2Proof.Machine

/-- `V[x] <- r`, then `VF <- f` (R31, R180). -/
def State.setResultAndFlag (s : State) (x : Reg) (r f : Byte) : State := (s.setV x r).setV VF f

/-- `V[x] <- r`, then the VF effect of the logic instructions (R184 to R186). -/
def State.setLogicResult (s : State) (x : Reg) (r : Byte) : State := (s.setV x r).logicFlag

/-- 6xnn, LD Vx, nn (R181). -/
def execLdVxNn (x : Reg) (nn : Byte) (s : State) : Host.Outcome State Fault Refusal := (s.setV x nn).complete

/-- 7xnn, ADD Vx, nn (R182): wraps, with no flag. -/
def execAddVxNn (x : Reg) (nn : Byte) (s : State) : Host.Outcome State Fault Refusal :=
  (s.setV x (s.getV x + nn)).complete

/-- 8xy0, LD Vx, Vy (R183). -/
def execLdVxVy (x y : Reg) (s : State) : Host.Outcome State Fault Refusal := (s.setV x (s.getV y)).complete

/-- 8xy1, OR Vx, Vy (R184). -/
def execOrVxVy (x y : Reg) (s : State) : Host.Outcome State Fault Refusal :=
  (s.setLogicResult x (s.getV x ||| s.getV y)).complete

/-- 8xy2, AND Vx, Vy (R185). -/
def execAndVxVy (x y : Reg) (s : State) : Host.Outcome State Fault Refusal :=
  (s.setLogicResult x (s.getV x &&& s.getV y)).complete

/-- 8xy3, XOR Vx, Vy (R186). -/
def execXorVxVy (x y : Reg) (s : State) : Host.Outcome State Fault Refusal :=
  (s.setLogicResult x (s.getV x ^^^ s.getV y)).complete

/-- 8xy4, ADD Vx, Vy (R187): VF is the carry. -/
def execAddVxVy (x y : Reg) (s : State) : Host.Outcome State Fault Refusal :=
  (s.setResultAndFlag x (s.getV x + s.getV y) (carryFlag (s.getV x) (s.getV y))).complete

/-- 8xy5, SUB Vx, Vy (R188): `Vx - Vy`, VF is NOT borrow. -/
def execSubVxVy (x y : Reg) (s : State) : Host.Outcome State Fault Refusal :=
  (s.setResultAndFlag x (s.getV x - s.getV y) (notBorrowFlag (s.getV x) (s.getV y))).complete

/-- 8xy6, SHR Vx, Vy (R189): VF is the bit shifted out. -/
def execShrVxVy (x y : Reg) (s : State) : Host.Outcome State Fault Refusal :=
  (s.setResultAndFlag x (s.shiftOperand x y >>> 1) (shiftRightFlag (s.shiftOperand x y))).complete

/-- 8xy7, SUBN Vx, Vy (R190): `Vy - Vx`, VF is NOT borrow. -/
def execSubnVxVy (x y : Reg) (s : State) : Host.Outcome State Fault Refusal :=
  (s.setResultAndFlag x (s.getV y - s.getV x) (notBorrowFlag (s.getV y) (s.getV x))).complete

/-- 8xyE, SHL Vx, Vy (R191): VF is the bit shifted out. -/
def execShlVxVy (x y : Reg) (s : State) : Host.Outcome State Fault Refusal :=
  (s.setResultAndFlag x (s.shiftOperand x y <<< 1) (shiftLeftFlag (s.shiftOperand x y))).complete

/-- Cxnn, RND Vx, nn (R192): a fresh draw of the oracle, masked. -/
def execRndVxNn (x : Reg) (nn : Byte) (s : State) : Host.Outcome State Fault Refusal :=
  (s.randomByte.2.setV x (s.randomByte.1 &&& nn)).complete

end Sys2Proof.Machine
end

