-- ==== Sys2Proof/Machine/ControlFlow.lean ====
section
/-! DEFINITION. Control flow instructions (41_control_flow.md). PC holds the instruction's address plus 2 when a meaning runs
(R33, R150). -/

namespace Sys2Proof.Machine

/-- `CheckTarget(tgt); PC <- tgt` (R151). -/
def State.jumpTo (s : State) (tgt : Word) : Host.Outcome State Fault Refusal :=
  match targetFault tgt with
  | some f => s.raiseFatal f
  | none => (s.setPc tgt).complete

/-- 0nnn, SYS nnn (R161): its only effect is the UnsupportedInstruction outcome, with the opcode, whose tag is 0. -/
def execSysNnn (nnn : Addr12) (s : State) : Host.Outcome State Fault Refusal :=
  s.raise (.unsupportedInstruction (zext16 nnn))

/-- 00EE, RET (R153): the popped address is not checked. -/
def execRet (s : State) : Host.Outcome State Fault Refusal :=
  match s.pop with
  | .ok (tgt, s') => (s'.setPc tgt).complete
  | .error f => s.raiseFatal f

/-- 1nnn, JP nnn (R154). -/
def execJpNnn (nnn : Addr12) (s : State) : Host.Outcome State Fault Refusal := s.jumpTo (zext16 nnn)

/-- 2nnn, CALL nnn (R155): a full stack is reported before an odd target. -/
def execCallNnn (nnn : Addr12) (s : State) : Host.Outcome State Fault Refusal :=
  match s.push s.pc with
  | .error f => s.raiseFatal f
  | .ok s' =>
    match targetFault (zext16 nnn) with
    | some f => s.raiseFatal f
    | none => (s'.setPc (zext16 nnn)).complete

/-- 3xnn, SE Vx, nn (R156). -/
def execSeVxNn (x : Reg) (nn : Byte) (s : State) : Host.Outcome State Fault Refusal :=
  (s.skipIf (s.getV x == nn)).complete

/-- 4xnn, SNE Vx, nn (R157). -/
def execSneVxNn (x : Reg) (nn : Byte) (s : State) : Host.Outcome State Fault Refusal :=
  (s.skipIf (s.getV x != nn)).complete

/-- 5xy0, SE Vx, Vy (R158). -/
def execSeVxVy (x y : Reg) (s : State) : Host.Outcome State Fault Refusal :=
  (s.skipIf (s.getV x == s.getV y)).complete

/-- 9xy0, SNE Vx, Vy (R159). -/
def execSneVxVy (x y : Reg) (s : State) : Host.Outcome State Fault Refusal :=
  (s.skipIf (s.getV x != s.getV y)).complete

/-- Bnnn, JP V0, nnn (R160): the sum is not masked to 12 bits. -/
def execJpV0Nnn (nnn : Addr12) (s : State) : Host.Outcome State Fault Refusal := s.jumpTo (s.offsetTarget nnn)

end Sys2Proof.Machine
end

