-- ==== Sys2Proof/Machine/Display.lean ====
section
/-! DEFINITION. The framebuffer and the display instructions (44_display.md). -/

namespace Sys2Proof.Machine

/-- The pixel at column `px mod 64` and row `py mod 32` (R43). -/
def Framebuffer.pixel (fb : Framebuffer) (px py : Nat) : Bool :=
  (fb[px % 64]'(Nat.mod_lt _ (by decide)))[py % 32]'(Nat.mod_lt _ (by decide))

/-- Writing the pixel at column `px mod 64` and row `py mod 32` (R43). -/
def Framebuffer.setPixel (fb : Framebuffer) (px py : Nat) (b : Bool) : Framebuffer :=
  fb.set (px % 64) ((fb[px % 64]'(Nat.mod_lt _ (by decide))).set (py % 32) b (Nat.mod_lt _ (by decide)))
    (Nat.mod_lt _ (by decide))

/-- Every pixel 0 (R241). -/
def Framebuffer.clear : Framebuffer := Vector.replicate 64 (Vector.replicate 32 false)

/-- One sprite bit (R242): a 1 bit flips its pixel, and the collision `hit` is set when the pixel was on; a 0 bit changes
nothing. -/
def plotBit (px py : Nat) (bit : Bool) (acc : Framebuffer × Bool) : Framebuffer × Bool :=
  if bit then (acc.1.setPixel px py (!acc.1.pixel px py), acc.2 || acc.1.pixel px py) else acc

/-- The bit of a sprite row in column c: bit 7 is the leftmost (R243; PRESUMED, log entry 9). -/
def spriteBit (row : Byte) (c : Nat) : Bool := row.getLsbD (7 - c)

/-- The columns of one sprite row, those of the list, drawn at row `y` from column `cx` on (R242). -/
def plotColumns (cx y : Nat) (row : Byte) : List Nat → Framebuffer × Bool → Framebuffer × Bool
  | [], acc => acc
  | c :: cs, acc => plotColumns cx y row cs (plotBit (cx + c) y (spriteBit row c) acc)

/-- The rows of a sprite, the first at row `y` (R242). -/
def plotRows (cx : Nat) : Nat → List Byte → Framebuffer × Bool → Framebuffer × Bool
  | _, [], acc => acc
  | y, row :: rows, acc => plotRows cx (y + 1) rows (plotColumns cx y row (List.range 8) acc)

/-- A sprite drawn at column `cx` and row `cy`: the framebuffer after it, and whether a pixel that was on was erased
(R242). -/
def drawSprite (fb : Framebuffer) (cx cy : Nat) (rows : List Byte) : Framebuffer × Bool :=
  plotRows cx cy rows (fb, false)

/-- 00E0, CLS (R241). -/
def execCls (s : State) : Host.Outcome State Fault Refusal :=
  ((s.setFb Framebuffer.clear).setClearedFlag true).complete

/-- Dxyn, DRW Vx, Vy, n (R242): the coordinates are read before VF, the collision flag, is written last. -/
def execDrwVxVyN (x y : Reg) (n : Height) (s : State) : Host.Outcome State Fault Refusal :=
  match s.memRead s.i n.val with
  | .error f => s.raiseFatal f
  | .ok rows =>
    let drawn := drawSprite s.fb (s.getV x).toNat (s.getV y).toNat rows
    (((s.setFb drawn.1).setDrawFlag true).setV VF (flagByte drawn.2)).complete

end Sys2Proof.Machine
end

