-- ==== Sys2Proof/Machine/IndexMemory.lean ====
section
/-! DEFINITION. Index register and memory instructions (43_index_memory.md). Every access is range-checked as a whole before
anything is written (R72, R210). -/

namespace Sys2Proof.Machine

/-- The VF effect of Fx1E, by P_FX1E_VF (R212). -/
def State.setIndexFlag (s : State) (flag : Byte) : State :=
  match s.params.fx1eVF with
  | .overflowFlag => s.setV VF flag
  | .unchanged => s

/-- Annn, LD I, nnn (R211). -/
def execLdINnn (nnn : Addr12) (s : State) : Host.Outcome State Fault Refusal := (s.setI (zext16 nnn)).complete

/-- Fx1E, ADD I, Vx (R212): I is reduced modulo 65536, the flag tells a sum above 0xFFF. -/
def execAddIVx (x : Reg) (s : State) : Host.Outcome State Fault Refusal :=
  ((s.setI (s.i + zext16 (s.getV x))).setIndexFlag (indexOverflowFlag s.i (s.getV x))).complete

/-- Fx29, LD F, Vx (R213). -/
def execLdFVx (x : Reg) (s : State) : Host.Outcome State Fault Refusal := (s.setI (glyphAddress (s.getV x))).complete

/-- Fx33, LD B, Vx (R214): the decimal digits of `V[x]` at I, I + 1 and I + 2. -/
def execLdBVx (x : Reg) (s : State) : Host.Outcome State Fault Refusal :=
  match s.memWrite s.i (decimalDigits (s.getV x)) with
  | .ok s' => s'.complete
  | .error f => s.raiseFatal f

/-- Fx55, LD [I], Vx (R215): `V[0]` to `V[x]` at I on. -/
def execLdMemVx (x : Reg) (s : State) : Host.Outcome State Fault Refusal :=
  match s.memWrite s.i (s.regBlock x) with
  | .ok s' => (s'.bumpIndex x).complete
  | .error f => s.raiseFatal f

/-- Fx65, LD Vx, [I] (R216): `V[0]` to `V[x]` from I on. -/
def execLdVxMem (x : Reg) (s : State) : Host.Outcome State Fault Refusal :=
  match s.memRead s.i (x.val + 1) with
  | .ok bytes => ((s.loadRegBlock bytes).bumpIndex x).complete
  | .error f => s.raiseFatal f

end Sys2Proof.Machine
end

