-- ==== Sys2Proof/Machine/KeysTimers.lean ====
section
/-! DEFINITION. Keypad and timer instructions, and the timer tick (45_keys_timers.md). -/

namespace Sys2Proof.Machine

/-- Ex9E, SKP Vx (R262). -/
def execSkpVx (x : Reg) (s : State) : Host.Outcome State Fault Refusal :=
  match s.keyDown (s.getV x) with
  | .ok down => (s.skipIf down).complete
  | .error f => s.raiseFatal f

/-- ExA1, SKNP Vx (R263). -/
def execSknpVx (x : Reg) (s : State) : Host.Outcome State Fault Refusal :=
  match s.keyDown (s.getV x) with
  | .ok down => (s.skipIf (!down)).complete
  | .error f => s.raiseFatal f

/-- Fx0A, LD Vx, K (R266): with no key edge PC goes back to this instruction and the outcome is Ok (R140, R265). -/
def execLdVxK (x : Reg) (s : State) : Host.Outcome State Fault Refusal :=
  match s.edges with
  | [] => (s.setPc (s.pc - 2)).complete
  | k :: ks => ((s.pickKey k ks).2.setV x (BitVec.ofNat 8 (s.pickKey k ks).1.val)).complete

/-- Fx07, LD Vx, DT (R267). -/
def execLdVxDt (x : Reg) (s : State) : Host.Outcome State Fault Refusal := (s.setV x s.dt).complete

/-- Fx15, LD DT, Vx (R268). -/
def execLdDtVx (x : Reg) (s : State) : Host.Outcome State Fault Refusal := (s.setDt (s.getV x)).complete

/-- Fx18, LD ST, Vx (R269). -/
def execLdStVx (x : Reg) (s : State) : Host.Outcome State Fault Refusal := (s.setSt (s.getV x)).complete

/-- One tick of a timer: toward zero, never below (R41, R270). -/
def tickTimer (b : Byte) : Byte := if b = 0 then 0 else b - 1

/-- `tick_timers()`, a host operation (R270). -/
def State.tickTimers (s : State) : State := (s.setDt (tickTimer s.dt)).setSt (tickTimer s.st)

end Sys2Proof.Machine
end

