-- ==== Sys2Proof/Machine/Step.lean ====
section
/-! DEFINITION. The step cycle (40_cycle.md R130 to R138): latch, fetch check, fetch, decode, execute, finish. -/

namespace Sys2Proof.Machine

/-- One call of `step()` (R138). The outcome it returns is `outcome` of the next state; from a latched state it changes
nothing and the fault carries the latched outcome (R130; log entry 4). -/
def step (s : State) : Host.Outcome State Fault Refusal :=
  match s.latch with
  | some f => .fault (.latched f)
  | none =>
    match s.fetchFault with
    | some f => .next (s.setOutcome (.fatal f)).finish
    | none =>
      match decodeWord s.fetchWord with
      | .unsupported op => .next (s.advancePc.setOutcome (.unsupportedInstruction op)).finish
      | .instr i =>
        match exec i s.advancePc with
        | .next t => .next t.finish
        | .fault f => .fault f
        | .refused r => .refused r

/-- The state in which the very next step runs the opcode-table word `w` of `nbits` bits: the word's two bytes stand where
the step fetches, high byte first (R74), no outcome is latched, and a PC that no fetch could use is put at the start of the
program region. It stands for a program loaded from outside (log entry 12). -/
def State.withFetchWord (s : State) (nbits w : Nat) : State :=
  let op : Word := BitVec.ofNat 16 (w % 2 ^ min nbits 16)
  let ready := (if s.fetchFault.isSome then s.setPc 512#16 else s).setLatch none
  let a := ready.pc.toNat
  ready.setMem ((ready.mem.write a (highByte op)).write (a + 1) (lowByte op))

end Sys2Proof.Machine
end

