-- ==== Sys2Proof/Machine/Boot.lean ====
section
/-! DEFINITION. Construction and the ROM load (20_memory.md R83 to R86; 70_reset_and_hazards.md R330 to R332), for every value
of P_FONT and P_RESET_FILL. -/

namespace Sys2Proof.Machine

/-- The parameters of a machine, those construction reads with those instructions read (R9). -/
structure Build where
  /-- `P_FONT`. -/
  font : Vector Byte 80
  /-- `P_RESET_FILL`. -/
  resetFill : ResetFill
  /-- The run-time parameters. -/
  params : Params
  deriving DecidableEq, Repr

/-- The values that construction leaves in what the source does not initialise, under P_RESET_FILL = ARBITRARY (R53): any. An
argument of construction, so that a claim for every one of them is a claim under ARBITRARY. -/
structure ArbitraryFill where
  mem : Vector Byte 4096
  v : Vector Byte 16
  i : Word
  dt : Byte
  st : Byte
  deriving DecidableEq, Repr

/-- `P_FONT`'s default as a table of 80 bytes (R52). -/
def defaultFont : Vector Byte 80 := Vector.ofFn (fun a => fontTable.getD a.val 0)

/-- The defaults of R9. -/
def Build.default : Build where
  font := defaultFont
  resetFill := .zero
  params := Params.default

/-- A construction value under P_RESET_FILL: zero, or the arbitrary one (R53). -/
def ResetFill.choose {w : Nat} (f : ResetFill) (arbitrary : BitVec w) : BitVec w :=
  match f with
  | .zero => 0
  | .arbitrary => arbitrary

/-- What `construct_memory()` puts at an address: the font in 0 to 79, the fill elsewhere (R331). -/
def constructedByte (b : Build) (any : ArbitraryFill) (a : Fin 4096) : Byte :=
  if h : a.val < 80 then b.font[a.val] else ResetFill.choose b.resetFill any.mem[a]

/-- `construct_memory()` (R331). -/
def constructMemory (b : Build) (any : ArbitraryFill) : Memory :=
  Memory.writeBytes [] 0 ((List.finRange 4096).map (constructedByte b any))

/-- What `load()` returns (R304). -/
inductive LoadResult where
  | loadOk
  | romTooLarge
  deriving DecidableEq, Repr

/-- The code of a load result (R304). -/
def LoadResult.code : LoadResult → Nat
  | .loadOk => 0
  | .romTooLarge => 1

/-- The first address of the program region (R8, R71). -/
def romBase : Nat := 512

/-- The longest ROM (R8, R83). -/
def romMax : Nat := 3584

/-- `load(buffer)` (R83, R84): the bytes verbatim from 512 on, or no byte changed when the buffer is too long. -/
def load (m : Memory) (buffer : List Byte) : LoadResult × Memory :=
  if buffer.length ≤ romMax then (.loadOk, m.writeBytes romBase buffer) else (.romTooLarge, m)

/-- `construct_engine()` over a memory (R332). `drawn` is how many free values earlier engines have drawn: the count goes on
from there, so that nothing relates the draws of two runs (R192, D22; log entry 2). -/
def constructEngine (b : Build) (any : ArbitraryFill) (drawn : Nat) (m : Memory) : State where
  v := match b.resetFill with
    | .zero => Vector.replicate 16 0
    | .arbitrary => any.v
  pc := 512#16
  i := ResetFill.choose b.resetFill any.i
  stack := Vector.replicate 16 0
  sp := 0
  dt := ResetFill.choose b.resetFill any.dt
  st := ResetFill.choose b.resetFill any.st
  fb := Vector.replicate 64 (Vector.replicate 32 false)
  keys := Vector.replicate 16 false
  prevKeys := Vector.replicate 16 false
  drawFlag := false
  clearedFlag := false
  latch := none
  mem := m
  outcome := .ok
  params := b.params
  draws := drawn

end Sys2Proof.Machine
end

