-- ==== Sys2Proof/Machine/HostInterface.lean ====
section
/-! DEFINITION. The host's transactions (60_exceptions.md R320 to R324): each one as a function, and all of them as one
transition of the whole system, in any order the host may choose. -/

namespace Sys2Proof.Machine

/-- `set_keys(k)` (R321). -/
def State.setKeys (s : State) (k : Vector Bool 16) : State := s.setKeyState k

/-- `clear_draw_flag()` (R322). -/
def State.clearDrawFlag (s : State) : State := s.setDrawFlag false

/-- `clear_cleared_flag()` (R322). -/
def State.clearClearedFlag (s : State) : State := s.setClearedFlag false

/-- What `read_snapshot()` returns (R323). -/
structure Snapshot where
  drawFlag : Bool
  clearedFlag : Bool
  fb : Framebuffer
  dt : Byte
  st : Byte
  deriving DecidableEq, Repr

/-- `read_snapshot()` (R323); it changes no state. -/
def State.readSnapshot (s : State) : Snapshot := ⟨s.drawFlag, s.clearedFlag, s.fb, s.dt, s.st⟩

/-- How far the boot sequence has come (R330). -/
inductive System where
  /-- Nothing is constructed. -/
  | empty
  /-- `construct_memory()` has run; ROMs may be loaded. `drawn` is THE MODEL'S OWN: how many free values earlier engines have
  drawn (log entry 2). -/
  | memory (m : Memory) (drawn : Nat)
  /-- `construct_engine()` has run. -/
  | engine (s : State)
  deriving DecidableEq, Repr

/-- THE MODEL'S OWN: how many free values have been drawn since nothing was constructed (log entry 2). -/
def System.drawn : System → Nat
  | .empty => 0
  | .memory _ drawn => drawn
  | .engine s => s.draws

/-- The transactions of R320, and no others. -/
inductive HostOp where
  | constructMemory (any : ArbitraryFill)
  | load (buffer : List Byte)
  | constructEngine (any : ArbitraryFill)
  | setKeys (k : Vector Bool 16)
  | step
  | tickTimers
  | clearDrawFlag
  | clearClearedFlag
  | readSnapshot
  deriving DecidableEq, Repr

/-- What a transaction returns (R320). -/
inductive Reply where
  | none
  | load (r : LoadResult)
  | outcome (o : StepOutcome)
  | snapshot (v : Snapshot)
  deriving DecidableEq, Repr

/-- `step()` as the host sees it: it always returns an outcome, the latched one with no state changed (R130, R300). -/
def stepReply (s : State) : Host.Outcome (System × Reply) Fault Refusal :=
  match step s with
  | .next t => .next (.engine t, .outcome t.outcome)
  | .fault (.latched f) => .next (.engine s, .outcome (.fatal f))
  | .refused r => .refused r

/-- The run-time transactions, allowed at any time after `construct_engine` (R320). A second `construct_engine` on a running
engine is refused (DESIGN CHOICE, log entry 14: R320 says only 'after construct_memory', R330 'a new run is a new construction
from step 1'). -/
def runtimeOp (s : State) : HostOp → Host.Outcome (System × Reply) Fault Refusal
  | .setKeys k => .next (.engine (s.setKeys k), .none)
  | .step => stepReply s
  | .tickTimers => .next (.engine s.tickTimers, .none)
  | .clearDrawFlag => .next (.engine s.clearDrawFlag, .none)
  | .clearClearedFlag => .next (.engine s.clearClearedFlag, .none)
  | .readSnapshot => .next (.engine s, .snapshot s.readSnapshot)
  | .load _ => .refused .loadAfterEngine
  | .constructMemory _ => .refused .hostOperationOutOfOrder
  | .constructEngine _ => .refused .hostOperationOutOfOrder

/-- The boot transactions over a constructed memory (R320, R330). A failed load may be followed by another (R85). DESIGN CHOICE
(log entry 14): a load may follow one that succeeded, and `construct_engine` needs no load that succeeded, though R330 loads
until one does; memory then holds what construction left. -/
def bootOp (b : Build) (m : Memory) (drawn : Nat) : HostOp → Host.Outcome (System × Reply) Fault Refusal
  | .load buffer => .next (.memory (load m buffer).2 drawn, .load (load m buffer).1)
  | .constructEngine any => .next (.engine (constructEngine b any drawn m), .none)
  | .constructMemory _ => .refused .hostOperationOutOfOrder
  | .setKeys _ => .refused .hostOperationOutOfOrder
  | .step => .refused .hostOperationOutOfOrder
  | .tickTimers => .refused .hostOperationOutOfOrder
  | .clearDrawFlag => .refused .hostOperationOutOfOrder
  | .clearClearedFlag => .refused .hostOperationOutOfOrder
  | .readSnapshot => .refused .hostOperationOutOfOrder

/-- One transaction (R320). `construct_memory()` starts a new run from any point: a new run is a new construction (R309,
R330); that it needs no end of the old run is DESIGN CHOICE (log entry 14). -/
def transact (b : Build) (y : System) (o : HostOp) : Host.Outcome (System × Reply) Fault Refusal :=
  match o with
  | .constructMemory any => .next (.memory (constructMemory b any) y.drawn, .none)
  | _ =>
    match y with
    | .empty => .refused .hostOperationOutOfOrder
    | .memory m drawn => bootOp b m drawn o
    | .engine s => runtimeOp s o

/-- A sequence of transactions, which stops at the first that is refused (R324: every interleaving is a run). -/
def transactAll (b : Build) : System → List HostOp → Host.Outcome System Fault Refusal
  | y, [] => .next y
  | y, o :: os =>
    match transact b y o with
    | .next r => transactAll b r.1 os
    | .fault f => .fault f
    | .refused r => .refused r

end Sys2Proof.Machine
end

