-- ==== Sys2Proof/Safety.lean ====
section
/-! DEFINITION. What claims are stated in: a machine that has not stopped, the invariant of reachable states, the frame of an
instruction, and the place of a sprite's bits on the screen. -/

namespace Sys2Proof.Machine

namespace State

/-- The core has met no fatal outcome (R18, R46; D5: a latched state is never a success). -/
def Safe (s : State) : Prop := s.latch = none ∧ s.outcome.fatal? = none

/-- What every reachable state satisfies. -/
structure Inv (s : State) : Prop where
  /-- Memory is in canonical form. -/
  memCanonical : s.mem.wf = true
  /-- PC is even (R34, R162). -/
  pcEven : s.pc.toNat % 2 = 0
  /-- PC is at most 0xFFF + 0xFF (R36). -/
  pcBounded : s.pc.toNat ≤ 0x10FE
  /-- The stack entries in use are return addresses that CALL pushed: even, at most 0xFFE + 2 (R153, R162). -/
  stackEven : ∀ k : Fin 16, k.val < s.sp.val → s.stack[k].toNat % 2 = 0 ∧ s.stack[k].toNat ≤ 0x1000
  /-- LATCH holds the outcome the step returned (R46). -/
  latchedOutcome : ∀ f, s.latch = some f → s.outcome = .fatal f

end State

/-- The parts of the state an instruction may write beside the general registers and the outcome. -/
inductive Part where
  | pc
  | i
  | stack
  | dt
  | st
  | fb
  | drawFlag
  | clearedFlag
  | memory
  | draws
  deriving DecidableEq, Repr

/-- A part of the state is the same in two states; memory is compared byte by byte. -/
def Part.Same (s t : State) : Part → Prop
  | .pc => t.pc = s.pc
  | .i => t.i = s.i
  | .stack => t.stack = s.stack ∧ t.sp = s.sp
  | .dt => t.dt = s.dt
  | .st => t.st = s.st
  | .fb => t.fb = s.fb
  | .drawFlag => t.drawFlag = s.drawFlag
  | .clearedFlag => t.clearedFlag = s.clearedFlag
  | .memory => ∀ a, t.mem.read a = s.mem.read a
  | .draws => t.draws = s.draws

/-- The frame of an instruction that takes `s` to `t`: every general register outside `regs` and every part outside `parts`
is unchanged, and so are the keypad snapshots, LATCH and the parameters, which no instruction writes. -/
structure Frame (s t : State) (regs : List Reg) (parts : List Part) : Prop where
  registers : ∀ r, r ∉ regs → t.getV r = s.getV r
  others : ∀ p, p ∉ parts → p.Same s t
  keys : t.keys = s.keys
  prevKeys : t.prevKeys = s.prevKeys
  latch : t.latch = s.latch
  params : t.params = s.params

/-- Whether a sprite drawn at column `cx` and row `cy` has a 1 bit on the pixel at column `px` and row `py`: the pixel's column
counted from `cx` is below 8, its row counted from `cy` is below the height, both modulo the screen's size, and bit 7 of a
byte is its leftmost pixel (R43, R242, R243). -/
def spriteOn (rows : List Byte) (cx cy px py : Nat) : Bool :=
  let c := (px + 64 - cx % 64) % 64
  let r := (py + 32 - cy % 32) % 32
  decide (c < 8) && decide (r < rows.length) && (rows.getD r 0).getLsbD (7 - c)

end Sys2Proof.Machine
end

