-- ==== Sys2Proof/Certificates/Slice0/Obligations.lean ====
section
/-! DEFINITION. The statements for the provers, from the numbered rules of spec/. Results are stated on unbounded numbers, as the
spec's pseudocode is (R12). A statement about the parameters holds for every value of them, and one about a free value for
every value of it. -/

open Sys2Proof Sys2Proof.Machine

/-! ## Words used below -/

/-- The instructions of 42_alu.md (R180). -/
def Sys2Proof.isAlu : Instr → Bool
  | .ldVxNn _ _ => true
  | .addVxNn _ _ => true
  | .ldVxVy _ _ => true
  | .orVxVy _ _ => true
  | .andVxVy _ _ => true
  | .xorVxVy _ _ => true
  | .addVxVy _ _ => true
  | .subVxVy _ _ => true
  | .shrVxVy _ _ => true
  | .subnVxVy _ _ => true
  | .shlVxVy _ _ => true
  | .rndVxNn _ _ => true
  | _ => false

/-- The general registers an instruction may write, by the table of R32. -/
def Sys2Proof.registersWritten (p : Params) : Instr → List Reg
  | .ldVxNn x _ => [x]
  | .addVxNn x _ => [x]
  | .ldVxVy x _ => [x]
  | .orVxVy x _ => if p.logicVF = .reset then [x, VF] else [x]
  | .andVxVy x _ => if p.logicVF = .reset then [x, VF] else [x]
  | .xorVxVy x _ => if p.logicVF = .reset then [x, VF] else [x]
  | .addVxVy x _ => [x, VF]
  | .subVxVy x _ => [x, VF]
  | .shrVxVy x _ => [x, VF]
  | .subnVxVy x _ => [x, VF]
  | .shlVxVy x _ => [x, VF]
  | .rndVxNn x _ => [x]
  | .drwVxVyN _ _ _ => [VF]
  | .ldVxDt x => [x]
  | .ldVxK x => [x]
  | .addIVx _ => if p.fx1eVF = .overflowFlag then [VF] else []
  | .ldVxMem x => (List.finRange 16).filter (fun r => decide (r ≤ x))
  | _ => []

/-- The operand that SHR and SHL shift, by P_SHIFT_SRC (R189, R191). -/
def Sys2Proof.shifted (s : State) (x y : Reg) : Byte :=
  if s.params.shiftSrc = .vx then s.getV x else s.getV y

/-- A key that has gone down since the previous step (R264). -/
def Sys2Proof.isEdge (s : State) (k : Key) : Prop := s.keys[k] = true ∧ s.prevKeys[k] = false

/-- A state that ends the instruction with a fatal outcome and nothing else changed (R137). -/
def Sys2Proof.raised (s : State) (f : FatalOutcome) : State := { s with outcome := .fatal f }

/-- The instruction ends with a fatal outcome and nothing else changed, and the finish of the step latches that outcome (R136,
R137). -/
def Sys2Proof.endsIn (i : Instr) (s : State) (f : FatalOutcome) : Prop :=
  exec i s = .next (raised s f) ∧ (raised s f).finish.latch = some f

/-- `x << 8`, the x field in its place (R100). -/
def Sys2Proof.atX (x : Reg) : Word := BitVec.ofNat 16 x.val <<< 8

/-- `y << 4`, the y field in its place (R100). -/
def Sys2Proof.atY (y : Reg) : Word := BitVec.ofNat 16 y.val <<< 4

/-- The sprite that Dxyn reads (R242). -/
def Sys2Proof.spriteRows (s : State) (n : Height) : List Byte :=
  (List.range n.val).map (fun r => s.mem.read (s.i.toNat + r))

/-- What every reachable system satisfies: memory is canonical, and the engine's state meets `State.Inv`. -/
def Sys2Proof.systemInv : System → Prop
  | .empty => True
  | .memory m _ => m.wf = true
  | .engine s => s.Inv

/-! ## Encoding -/

/-- R101, R104, R115: the word of a well-formed instruction decodes to it, with every operand, and so do its two bytes in memory
order whatever follows them. -/
def Obligations.DecodeOfEncodeIsTheInstruction : Prop :=
  ∀ i : Instr, i.wellFormed = true →
    decodeWord (encode i) = .instr i ∧ ∀ rest, decodeBytes (encodeBytes i ++ rest) = .instr i rest

/-- R104: a word that decodes to an instruction is the word of that well-formed instruction, so no bit of it is ignored. -/
def Obligations.EncodeOfDecodeIsTheWord : Prop :=
  ∀ (op : Word) (i : Instr), decodeWord op = .instr i → i.wellFormed = true ∧ encode i = op

/-- R112: the words that match no instruction, by tag and low nibble or low byte. -/
def Obligations.UnsupportedWordsAreThoseListed : Prop :=
  ∀ op : Word,
    let t := op.toNat / 4096
    let n := op.toNat % 16
    let nn := op.toNat % 256
    decodeWord op = .unsupported op ↔
      (t = 0x5 ∧ n ≠ 0) ∨ (t = 0x8 ∧ n ∈ [0x8, 0x9, 0xA, 0xB, 0xC, 0xD, 0xF]) ∨ (t = 0x9 ∧ n ≠ 0) ∨
        (t = 0xE ∧ nn ∉ [0x9E, 0xA1]) ∨
        (t = 0xF ∧ nn ∉ [0x07, 0x0A, 0x15, 0x18, 0x1E, 0x29, 0x33, 0x55, 0x65])

/-- R103: the two-stage decode gives the same answer as taking the first row of the opcode map of R110 that matches, with the
rows of 00E0 and 00EE before that of 0nnn. -/
def Obligations.DecodeAgreesWithTheOpcodeMap : Prop :=
  ∀ op : Word, decodeWord op = decodeByRows op

/-- Words of the spec's examples, one or more of each family, decode to the instructions they stand for. -/
def Obligations.ExampleWordsDecode : Prop :=
  decodeWord 0x0123#16 = .instr (.sysNnn 0x123#12) ∧ decodeWord 0x00E0#16 = .instr .cls ∧
    decodeWord 0x00EE#16 = .instr .ret ∧ decodeWord 0x1258#16 = .instr (.jpNnn 600#12) ∧
    decodeWord 0x22BC#16 = .instr (.callNnn 700#12) ∧ decodeWord 0x3305#16 = .instr (.seVxNn 3 5) ∧
    decodeWord 0x9120#16 = .instr (.sneVxVy 1 2) ∧ decodeWord 0x6A7B#16 = .instr (.ldVxNn 10 0x7B) ∧
    decodeWord 0x8127#16 = .instr (.subnVxVy 1 2) ∧ decodeWord 0xD125#16 = .instr (.drwVxVyN 1 2 5) ∧
    decodeWord 0xE0A1#16 = .instr (.sknpVx 0) ∧ decodeWord 0xF30A#16 = .instr (.ldVxK 3) ∧
    decodeWord 0xF265#16 = .instr (.ldVxMem 2) ∧ decodeWord 0x5121#16 = .unsupported 0x5121#16

/-! ## The step -/

/-- R132 to R134, R136: when no outcome is latched and the two bytes at an even PC up to 0xFFE decode, high byte first, to an
instruction, the step is that instruction's meaning with PC advanced by 2; then PREV_KEYS takes KEYS and a fatal outcome is
latched. -/
def Obligations.StepRunsTheDecodedInstruction : Prop :=
  ∀ (s : State) (i : Instr), s.latch = none → s.pc.toNat ≤ 0xFFE → s.pc.toNat % 2 = 0 →
    decodeBytes [s.mem.read s.pc.toNat, s.mem.read (s.pc.toNat + 1)] = .instr i [] →
    step s = match exec i { s with pc := s.pc + 2 } with
      | .next t => .next { t with
          prevKeys := t.keys
          latch := match t.outcome with
            | .fatal f => some f
            | .unsupportedInstruction _ => t.latch
            | .ok => t.latch }
      | .fault f => .fault f
      | .refused r => .refused r

/-- R130: while an outcome is latched the step changes no state and returns it: the machine stops with it as a fault (log entry
4), and the host's step transaction answers it with the same state. -/
def Obligations.LatchedStepReturnsTheLatchedOutcome : Prop :=
  ∀ (s : State) (f : FatalOutcome) (b : Build), s.latch = some f →
    step s = .fault (.latched f) ∧ transact b (.engine s) .step = .next (.engine s, .outcome (.fatal f))

/-- R131: the fetch check, with PC unchanged and the finish of R136 done. -/
def Obligations.FetchFaultsAreReportedAndLatched : Prop :=
  ∀ s : State, s.latch = none →
    (0xFFE < s.pc.toNat →
      step s = .next { s with
        outcome := .fatal (.addressFault .fetchRange s.pc)
        latch := some (.addressFault .fetchRange s.pc)
        prevKeys := s.keys }) ∧
    (s.pc.toNat ≤ 0xFFE → s.pc.toNat % 2 = 1 →
      step s = .next { s with
        outcome := .fatal (.addressFault .fetchMisaligned s.pc)
        latch := some (.addressFault .fetchMisaligned s.pc)
        prevKeys := s.keys })

/-- R135: a fetched word that matches no row is reported, PC is past it, nothing else changes but PREV_KEYS, and nothing is
latched. -/
def Obligations.UnsupportedWordIsReportedAndPassed : Prop :=
  ∀ (s : State) (op : Word), s.latch = none → s.pc.toNat ≤ 0xFFE → s.pc.toNat % 2 = 0 →
    decodeBytes [s.mem.read s.pc.toNat, s.mem.read (s.pc.toNat + 1)] = .unsupported op [] →
    op.toNat = (s.mem.read s.pc.toNat).toNat * 256 + (s.mem.read (s.pc.toNat + 1)).toNat ∧
      step s = .next { s with
        pc := s.pc + 2
        outcome := .unsupportedInstruction op
        prevKeys := s.keys }

/-- R136, R44: whatever the outcome, PREV_KEYS becomes KEYS, which the step does not change, and LATCH is set exactly by a fatal
outcome, to that outcome. That the parameters stay is a clause about the model's own field `params` (log entry 1). -/
def Obligations.EveryStepFinishes : Prop :=
  ∀ s t : State, step s = .next t →
    t.prevKeys = s.keys ∧ t.keys = s.keys ∧ t.params = s.params ∧
      (∀ f, t.latch = some f ↔ t.outcome = .fatal f)

/-- R300: a step that no latch blocks always ends, with one outcome: no instruction faults or is refused. -/
def Obligations.EveryUnlatchedStepAnswers : Prop :=
  ∀ s : State, s.latch = none → ∃ t, step s = .next t

/-- R308, R137: after an outcome other than Ok the state is the state before the step, with the fetch's PC advance (none for a
fetch fault), PREV_KEYS, and the latch of a fatal outcome. -/
def Obligations.OutcomesArePrecise : Prop :=
  ∀ s t : State, step s = .next t → t.outcome ≠ .ok →
    t = { s with pc := t.pc, outcome := t.outcome, prevKeys := s.keys, latch := t.outcome.fatal? } ∧
      (∀ v, t.outcome = .fatal (.addressFault .fetchRange v) ∨ t.outcome = .fatal (.addressFault .fetchMisaligned v) →
        t.pc = s.pc) ∧
      ((∀ v, t.outcome ≠ .fatal (.addressFault .fetchRange v) ∧
          t.outcome ≠ .fatal (.addressFault .fetchMisaligned v)) → t.pc = s.pc + 2)

/-- R300, R305: which instruction raises which outcome, and with which payload. -/
def Obligations.OutcomesAreRaisedByTheNamedInstructions : Prop :=
  ∀ (i : Instr) (s t : State), exec i s = .next t →
    (∀ op, t.outcome = .unsupportedInstruction op → ∃ nnn, i = .sysNnn nnn ∧ op = zext16 nnn) ∧
    (t.outcome = .fatal .stackOverflow → (∃ nnn, i = .callNnn nnn) ∧ s.sp.val = 16) ∧
    (t.outcome = .fatal .stackUnderflow → i = .ret ∧ s.sp.val = 0) ∧
    (∀ v, t.outcome = .fatal (.addressFault .readRange v) →
      v = s.i ∧ ((∃ x y n, i = .drwVxVyN x y n) ∨ ∃ x, i = .ldVxMem x)) ∧
    (∀ v, t.outcome = .fatal (.addressFault .writeRange v) →
      v = s.i ∧ ((∃ x, i = .ldBVx x) ∨ ∃ x, i = .ldMemVx x)) ∧
    (∀ v, t.outcome = .fatal (.addressFault .misalignedTarget v) →
      v.toNat % 2 = 1 ∧ ∃ nnn, (i = .jpNnn nnn ∧ v = zext16 nnn) ∨ (i = .callNnn nnn ∧ v = zext16 nnn) ∨
        (i = .jpV0Nnn nnn ∧ v.toNat = nnn.toNat + (s.getV 0).toNat)) ∧
    (∀ v, t.outcome = .fatal (.addressFault .keyIndex v) →
      ∃ x, (i = .skpVx x ∨ i = .sknpVx x) ∧ v.toNat = (s.getV x).toNat ∧ 15 < v.toNat) ∧
    (∀ v, t.outcome ≠ .fatal (.addressFault .fetchRange v) ∧ t.outcome ≠ .fatal (.addressFault .fetchMisaligned v))

/-- R300, R304, R305: the numeric codes. -/
def Obligations.OutcomeCodesAreTheSpecs : Prop :=
  StepOutcome.ok.code = 0 ∧ (∀ op, (StepOutcome.unsupportedInstruction op).code = 1) ∧
    (StepOutcome.fatal .stackOverflow).code = 2 ∧ (StepOutcome.fatal .stackUnderflow).code = 3 ∧
    (∀ c v, (StepOutcome.fatal (.addressFault c v)).code = 4) ∧
    FaultCause.fetchRange.code = 0 ∧ FaultCause.fetchMisaligned.code = 1 ∧ FaultCause.readRange.code = 2 ∧
    FaultCause.writeRange.code = 3 ∧ FaultCause.misalignedTarget.code = 4 ∧ FaultCause.keyIndex.code = 5 ∧
    LoadResult.loadOk.code = 0 ∧ LoadResult.romTooLarge.code = 1

/-! ## Invariants -/

/-- From every state that meets it, a step gives a state that meets it: memory stays canonical, PC stays even and at most
0x10FE, the stack entries in use stay even return addresses (R34, R36, R162). -/
def Obligations.StepKeepsTheInvariant : Prop :=
  ∀ s t : State, s.Inv → step s = .next t → t.Inv

/-- The state after construction meets the invariant. -/
def Obligations.ResetMeetsTheInvariant : Prop := State.reset.Inv

/-- R320, R324: every sequence of host transactions from an unconstructed system, with any ROM, any construction values and any
keypad snapshots, that is not refused reaches only systems that meet the invariant. -/
def Obligations.EveryRunOfTheHostKeepsTheInvariant : Prop :=
  ∀ (b : Build) (ops : List HostOp) (y : System), transactAll b .empty ops = .next y → systemInv y

/-- R320, R324: every transaction of the host, with any ROM, any construction values and any keypad snapshot, from every system
that meets the invariant gives a system that meets it, and an unconstructed system meets it. -/
def Obligations.EveryTransactionKeepsTheInvariant : Prop :=
  systemInv .empty ∧
    ∀ (b : Build) (y z : System) (o : HostOp) (r : Reply), systemInv y → transact b y o = .next (z, r) → systemInv z

/-- R192, D22: no transaction takes back a draw of the oracle, a new construction neither, so no two draws of one host, in one
run or in two, are the same draw (log entry 2: the count of draws is the model's own). -/
def Obligations.NoTransactionTakesBackADraw : Prop :=
  ∀ (b : Build) (y z : System) (o : HostOp) (r : Reply), transact b y o = .next (z, r) →
    y.drawn ≤ z.drawn ∧
      ∀ s t : State, y = .engine s → z = .engine t → o = .step → s.latch = none → s.fetchFault = none →
        ∀ (x : Reg) (nn : Byte), decodeWord s.fetchWord = .instr (.rndVxNn x nn) →
          t.getV x = Config.randomByte y.drawn &&& nn ∧ z.drawn = y.drawn + 1

/-- R76, R131: under the invariant the alignment check of the fetch never fires. -/
def Obligations.MisalignedFetchIsUnreachable : Prop :=
  ∀ s t : State, s.Inv → step s = .next t → ∀ v, t.outcome ≠ .fatal (.addressFault .fetchMisaligned v)

/-- R46, R309: only construction clears the latch, so no run-time transaction on an engine clears or changes it. That a second
`construct_engine` on a running engine is no way to clear it either rests on the model's refusal of one (log entry 14, DESIGN
CHOICE): R320 allows it 'after construct_memory', R332 clears LATCH, and R330 starts a new run from step 1. -/
def Obligations.LatchIsKeptUntilConstruction : Prop :=
  ∀ (b : Build) (s t : State) (o : HostOp) (r : Reply) (f : FatalOutcome), s.latch = some f →
    transact b (.engine s) o = .next (.engine t, r) → t.latch = some f

/-! ## Control flow -/

/-- R154: JP. -/
def Obligations.JumpSetsPcOrFaults : Prop :=
  ∀ (nnn : Addr12) (s : State),
    encode (.jpNnn nnn) = 0x1000#16 ||| zext16 nnn ∧
    (nnn.toNat % 2 = 0 → ∃ t, exec (.jpNnn nnn) s = .next t ∧ t.outcome = .ok ∧ t.pc.toNat = nnn.toNat ∧
      Frame s t [] [.pc]) ∧
    (nnn.toNat % 2 = 1 → endsIn (.jpNnn nnn) s (.addressFault .misalignedTarget (zext16 nnn)))

/-- R155: CALL. A full stack is reported first, then an odd target; otherwise PC, which is past the call, is pushed. -/
def Obligations.CallPushesTheReturnAddress : Prop :=
  ∀ (nnn : Addr12) (s : State),
    encode (.callNnn nnn) = 0x2000#16 ||| zext16 nnn ∧
    (s.sp.val = 16 → endsIn (.callNnn nnn) s .stackOverflow) ∧
    (s.sp.val < 16 → nnn.toNat % 2 = 1 →
      endsIn (.callNnn nnn) s (.addressFault .misalignedTarget (zext16 nnn))) ∧
    (s.sp.val < 16 → nnn.toNat % 2 = 0 → ∃ t, exec (.callNnn nnn) s = .next t ∧ t.outcome = .ok ∧
      t.pc.toNat = nnn.toNat ∧ t.sp.val = s.sp.val + 1 ∧
      (∀ k : Fin 16, t.stack[k] = if k.val = s.sp.val then s.pc else s.stack[k]) ∧ Frame s t [] [.pc, .stack])

/-- R153: RET. -/
def Obligations.ReturnPopsPc : Prop :=
  ∀ s : State,
    encode .ret = 0x00EE#16 ∧
    (s.sp.val = 0 → endsIn .ret s .stackUnderflow) ∧
    (∀ k : Fin 16, s.sp.val = k.val + 1 → ∃ t, exec .ret s = .next t ∧ t.outcome = .ok ∧ t.pc = s.stack[k] ∧
      t.sp.val = k.val ∧ t.stack = s.stack ∧ Frame s t [] [.pc, .stack])

/-- A return undoes a call: from any state with the stack the call left, PC and SP are those before the call's transfer. -/
def Obligations.ReturnUndoesCall : Prop :=
  ∀ (nnn : Addr12) (s : State), s.sp.val < 16 → nnn.toNat % 2 = 0 →
    ∃ t, exec (.callNnn nnn) s = .next t ∧
      ∀ u : State, u.stack = t.stack → u.sp = t.sp →
        ∃ w, exec .ret u = .next w ∧ w.outcome = .ok ∧ w.pc = s.pc ∧ w.sp = s.sp

/-- R156 to R159: the four conditional skips add 2 to PC when their condition holds, and change nothing else. -/
def Obligations.SkipsAddTwoWhenTheirConditionHolds : Prop :=
  ∀ (x y : Reg) (nn : Byte) (s : State),
    (encode (.seVxNn x nn) = 0x3000#16 ||| atX x ||| zext16 nn ∧ encode (.sneVxNn x nn) = 0x4000#16 ||| atX x ||| zext16 nn ∧
      encode (.seVxVy x y) = 0x5000#16 ||| atX x ||| atY y ∧ encode (.sneVxVy x y) = 0x9000#16 ||| atX x ||| atY y) ∧
    (∀ n : Height, n.val ≠ 0 → ∀ op ∈ [0x5000#16 ||| atX x ||| atY y ||| BitVec.ofNat 16 n.val,
      0x9000#16 ||| atX x ||| atY y ||| BitVec.ofNat 16 n.val], decodeWord op = .unsupported op) ∧
    (∃ t, exec (.seVxNn x nn) s = .next t ∧ t.outcome = .ok ∧
      t.pc = (if s.getV x = nn then s.pc + 2 else s.pc) ∧ Frame s t [] [.pc]) ∧
    (∃ t, exec (.sneVxNn x nn) s = .next t ∧ t.outcome = .ok ∧
      t.pc = (if s.getV x ≠ nn then s.pc + 2 else s.pc) ∧ Frame s t [] [.pc]) ∧
    (∃ t, exec (.seVxVy x y) s = .next t ∧ t.outcome = .ok ∧
      t.pc = (if s.getV x = s.getV y then s.pc + 2 else s.pc) ∧ Frame s t [] [.pc]) ∧
    (∃ t, exec (.sneVxVy x y) s = .next t ∧ t.outcome = .ok ∧
      t.pc = (if s.getV x ≠ s.getV y then s.pc + 2 else s.pc) ∧ Frame s t [] [.pc])

/-- R160: JP V0. The target is the sum on 16 bits, not masked to 12. -/
def Obligations.OffsetJumpAddsV0 : Prop :=
  ∀ (nnn : Addr12) (s : State),
    let tgt := nnn.toNat + (s.getV 0).toNat
    encode (.jpV0Nnn nnn) = 0xB000#16 ||| zext16 nnn ∧
    (tgt % 2 = 0 → ∃ t, exec (.jpV0Nnn nnn) s = .next t ∧ t.outcome = .ok ∧ t.pc.toNat = tgt ∧ Frame s t [] [.pc]) ∧
    (tgt % 2 = 1 →
      endsIn (.jpV0Nnn nnn) s (.addressFault .misalignedTarget (BitVec.ofNat 16 tgt)))

/-- R161: SYS. Its own effect is the UnsupportedInstruction outcome with the opcode, and nothing else. -/
def Obligations.SysIsReportedAsUnsupported : Prop :=
  ∀ (nnn : Addr12) (s : State), nnn ≠ 0x0E0#12 → nnn ≠ 0x0EE#12 →
    (Instr.sysNnn nnn).wellFormed = true ∧ encode (.sysNnn nnn) = 0x0000#16 ||| zext16 nnn ∧
    exec (.sysNnn nnn) s = .next { s with outcome := .unsupportedInstruction (encode (.sysNnn nnn)) }

/-- R141: a jump to its own address leaves all state but PREV_KEYS and the returned outcome unchanged. -/
def Obligations.SelfJumpChangesNothing : Prop :=
  ∀ (s : State) (nnn : Addr12), s.latch = none → s.pc.toNat = nnn.toNat → nnn.toNat % 2 = 0 →
    s.mem.read s.pc.toNat = highByte (encode (.jpNnn nnn)) →
    s.mem.read (s.pc.toNat + 1) = lowByte (encode (.jpNnn nnn)) →
    step s = .next { s with prevKeys := s.keys, outcome := .ok }

/-! ## Registers and arithmetic -/

/-- R181, R183: LD Vx, nn and LD Vx, Vy. -/
def Obligations.LoadsSetTheRegister : Prop :=
  ∀ (x y : Reg) (nn : Byte) (s : State),
    encode (.ldVxNn x nn) = 0x6000#16 ||| atX x ||| zext16 nn ∧ encode (.ldVxVy x y) = 0x8000#16 ||| atX x ||| atY y ∧
    (∃ t, exec (.ldVxNn x nn) s = .next t ∧ t.outcome = .ok ∧ t.getV x = nn ∧ Frame s t [x] []) ∧
    (∃ t, exec (.ldVxVy x y) s = .next t ∧ t.outcome = .ok ∧ t.getV x = s.getV y ∧ Frame s t [x] [])

/-- R182: ADD Vx, nn wraps at 8 bits, and VF is written only as the destination. -/
def Obligations.AddImmediateWrapsWithoutFlag : Prop :=
  ∀ (x : Reg) (nn : Byte) (s : State), encode (.addVxNn x nn) = 0x7000#16 ||| atX x ||| zext16 nn ∧
    ∃ t, exec (.addVxNn x nn) s = .next t ∧ t.outcome = .ok ∧
    (t.getV x).toNat = ((s.getV x).toNat + nn.toNat) % 256 ∧ Frame s t [x] []

/-- R184 to R186: OR, AND and XOR bit by bit, with the VF effect of P_LOGIC_VF after the result. -/
def Obligations.LogicIsBitwise : Prop :=
  ∀ (x y : Reg) (s : State) (i : Instr) (base : Word) (f : Bool → Bool → Bool),
    (i, base, f) ∈ [(.orVxVy x y, 0x8001#16, Bool.or), (.andVxVy x y, 0x8002#16, Bool.and),
      (.xorVxVy x y, 0x8003#16, Bool.xor)] →
    encode i = base ||| atX x ||| atY y ∧ ∃ t, exec i s = .next t ∧ t.outcome = .ok ∧
      (s.params.logicVF = .unchanged ∨ x ≠ VF →
        ∀ k, k < 8 → (t.getV x).getLsbD k = f ((s.getV x).getLsbD k) ((s.getV y).getLsbD k)) ∧
      (s.params.logicVF = .reset → t.getV VF = 0) ∧
      Frame s t (if s.params.logicVF = .reset then [x, VF] else [x]) []

/-- R187: ADD Vx, Vy. The sum is reduced modulo 256, VF is the carry, and the flag is written last. -/
def Obligations.AddSetsCarry : Prop :=
  ∀ (x y : Reg) (s : State), encode (.addVxVy x y) = 0x8004#16 ||| atX x ||| atY y ∧
    ∃ t, exec (.addVxVy x y) s = .next t ∧ t.outcome = .ok ∧
    (x ≠ VF → (t.getV x).toNat = ((s.getV x).toNat + (s.getV y).toNat) % 256) ∧
    (t.getV VF).toNat = (if 255 < (s.getV x).toNat + (s.getV y).toNat then 1 else 0) ∧
    Frame s t [x, VF] []

/-- R188, R190: SUB and SUBN. VF is 1 exactly when there is no borrow, and is written last. -/
def Obligations.SubtractionSetsNotBorrow : Prop :=
  ∀ (x y : Reg) (s : State),
    encode (.subVxVy x y) = 0x8005#16 ||| atX x ||| atY y ∧ encode (.subnVxVy x y) = 0x8007#16 ||| atX x ||| atY y ∧
    (∃ t, exec (.subVxVy x y) s = .next t ∧ t.outcome = .ok ∧
      (x ≠ VF → (t.getV x).toNat = ((s.getV x).toNat + 256 - (s.getV y).toNat) % 256) ∧
      (t.getV VF).toNat = (if (s.getV y).toNat ≤ (s.getV x).toNat then 1 else 0) ∧ Frame s t [x, VF] []) ∧
    (∃ t, exec (.subnVxVy x y) s = .next t ∧ t.outcome = .ok ∧
      (x ≠ VF → (t.getV x).toNat = ((s.getV y).toNat + 256 - (s.getV x).toNat) % 256) ∧
      (t.getV VF).toNat = (if (s.getV x).toNat ≤ (s.getV y).toNat then 1 else 0) ∧ Frame s t [x, VF] [])

/-- R189, R191: SHR and SHL of the operand P_SHIFT_SRC names. VF is the bit shifted out, and is written last. -/
def Obligations.ShiftsMoveOneBitIntoVF : Prop :=
  ∀ (x y : Reg) (s : State),
    encode (.shrVxVy x y) = 0x8006#16 ||| atX x ||| atY y ∧ encode (.shlVxVy x y) = 0x800E#16 ||| atX x ||| atY y ∧
    (∃ t, exec (.shrVxVy x y) s = .next t ∧ t.outcome = .ok ∧
      (x ≠ VF → (t.getV x).toNat = (shifted s x y).toNat / 2) ∧
      (t.getV VF).toNat = (shifted s x y).toNat % 2 ∧ Frame s t [x, VF] []) ∧
    (∃ t, exec (.shlVxVy x y) s = .next t ∧ t.outcome = .ok ∧
      (x ≠ VF → (t.getV x).toNat = (shifted s x y).toNat * 2 % 256) ∧
      (t.getV VF).toNat = (shifted s x y).toNat / 128 ∧ Frame s t [x, VF] [])

/-- R192: RND. The register takes the next draw of the oracle, whatever byte it is, masked; the draw is counted, so the next one
is fresh. -/
def Obligations.RandomIsAMaskedFreshDraw : Prop :=
  ∀ (x : Reg) (nn : Byte) (s : State), encode (.rndVxNn x nn) = 0xC000#16 ||| atX x ||| zext16 nn ∧
    ∃ t, exec (.rndVxNn x nn) s = .next t ∧ t.outcome = .ok ∧
    (∀ k, k < 8 → (t.getV x).getLsbD k = ((Config.randomByte s.draws).getLsbD k && nn.getLsbD k)) ∧
    t.draws = s.draws + 1 ∧ Frame s t [x] [.draws]

/-- R180: no instruction of the family raises an outcome other than Ok, and none touches memory, I, PC, the stack, the timers or
the display. -/
def Obligations.AluInstructionsTouchOnlyRegisters : Prop :=
  ∀ (i : Instr) (s : State), isAlu i = true →
    ∃ t, exec i s = .next t ∧ t.outcome = .ok ∧ Frame s t (registersWritten s.params i) [.draws]

/-- R32: an instruction writes no general register beside those the table gives it. -/
def Obligations.RegisterWritesFollowTheTable : Prop :=
  ∀ (i : Instr) (s t : State), exec i s = .next t →
    ∀ r, r ∉ registersWritten s.params i → t.getV r = s.getV r

/-! ## Index register and memory -/

/-- R211, R213: LD I, nnn and LD F, Vx; the glyph address is not masked. -/
def Obligations.IndexLoadsSetI : Prop :=
  ∀ (nnn : Addr12) (x : Reg) (s : State),
    encode (.ldINnn nnn) = 0xA000#16 ||| zext16 nnn ∧ encode (.ldFVx x) = 0xF029#16 ||| atX x ∧
    (∃ t, exec (.ldINnn nnn) s = .next t ∧ t.outcome = .ok ∧ t.i.toNat = nnn.toNat ∧ Frame s t [] [.i]) ∧
    (∃ t, exec (.ldFVx x) s = .next t ∧ t.outcome = .ok ∧ t.i.toNat = 5 * (s.getV x).toNat ∧ Frame s t [] [.i])

/-- R212: ADD I, Vx. I is reduced modulo 65536; under OVERFLOW_FLAG VF tells an unreduced sum above 0xFFF, under UNCHANGED VF is
not written. -/
def Obligations.IndexAddFlagsOverflow : Prop :=
  ∀ (x : Reg) (s : State), encode (.addIVx x) = 0xF01E#16 ||| atX x ∧
    ∃ t, exec (.addIVx x) s = .next t ∧ t.outcome = .ok ∧
    t.i.toNat = (s.i.toNat + (s.getV x).toNat) % 65536 ∧
    (s.params.fx1eVF = .overflowFlag →
      (t.getV VF).toNat = if 0xFFF < s.i.toNat + (s.getV x).toNat then 1 else 0) ∧
    Frame s t (if s.params.fx1eVF = .overflowFlag then [VF] else []) [.i]

/-- R214: LD B, Vx. The three digits at I to I + 2, every other byte and I as before; out of range nothing is written. -/
def Obligations.BcdStoresThreeDigits : Prop :=
  ∀ (x : Reg) (s : State), s.mem.wf = true →
    encode (.ldBVx x) = 0xF033#16 ||| atX x ∧
    (s.i.toNat + 2 ≤ 0xFFF → ∃ t, exec (.ldBVx x) s = .next t ∧ t.outcome = .ok ∧
      (t.mem.read s.i.toNat).toNat = (s.getV x).toNat / 100 ∧
      (t.mem.read (s.i.toNat + 1)).toNat = (s.getV x).toNat / 10 % 10 ∧
      (t.mem.read (s.i.toNat + 2)).toNat = (s.getV x).toNat % 10 ∧
      (∀ a, a < s.i.toNat ∨ s.i.toNat + 2 < a → t.mem.read a = s.mem.read a) ∧ Frame s t [] [.memory]) ∧
    (0xFFF < s.i.toNat + 2 → endsIn (.ldBVx x) s (.addressFault .writeRange s.i))

/-- R215: LD [I], Vx. V[0] to V[x] at I to I + x, every other byte as before, I by P_LDST_I; out of range nothing is written. -/
def Obligations.RegisterDumpStoresTheBlock : Prop :=
  ∀ (x : Reg) (s : State), s.mem.wf = true →
    encode (.ldMemVx x) = 0xF055#16 ||| atX x ∧
    (s.i.toNat + x.val ≤ 0xFFF → ∃ t, exec (.ldMemVx x) s = .next t ∧ t.outcome = .ok ∧
      (∀ j : Reg, j ≤ x → t.mem.read (s.i.toNat + j.val) = s.getV j) ∧
      (∀ a, a < s.i.toNat ∨ s.i.toNat + x.val < a → t.mem.read a = s.mem.read a) ∧
      t.i.toNat = (if s.params.ldstI = .increment then (s.i.toNat + x.val + 1) % 65536 else s.i.toNat) ∧
      Frame s t [] [.memory, .i]) ∧
    (0xFFF < s.i.toNat + x.val → endsIn (.ldMemVx x) s (.addressFault .writeRange s.i))

/-- R216: LD Vx, [I]. V[0] to V[x] from I to I + x, the other registers and memory as before, I by P_LDST_I; out of range nothing
is loaded. -/
def Obligations.RegisterLoadReadsTheBlock : Prop :=
  ∀ (x : Reg) (s : State),
    encode (.ldVxMem x) = 0xF065#16 ||| atX x ∧
    (s.i.toNat + x.val ≤ 0xFFF → ∃ t, exec (.ldVxMem x) s = .next t ∧ t.outcome = .ok ∧
      (∀ j : Reg, j ≤ x → t.getV j = s.mem.read (s.i.toNat + j.val)) ∧
      (∀ j : Reg, x < j → t.getV j = s.getV j) ∧
      t.i.toNat = (if s.params.ldstI = .increment then (s.i.toNat + x.val + 1) % 65536 else s.i.toNat) ∧
      Frame s t ((List.finRange 16).filter (fun r => decide (r ≤ x))) [.i]) ∧
    (0xFFF < s.i.toNat + x.val → endsIn (.ldVxMem x) s (.addressFault .readRange s.i))

/-- R81, R341: after a dump of V[0] and V[1] at an address, a fetch from that address gives the opcode they make: code written by
a store is seen by the next fetch. -/
def Obligations.StoredCodeIsFetched : Prop :=
  ∀ (x : Reg) (s t : State), s.mem.wf = true → 1 ≤ x.val → exec (.ldMemVx x) s = .next t → t.outcome = .ok →
    ∀ u : State, u.mem = t.mem → u.pc = s.i →
      u.fetchWord.toNat = (s.getV 0).toNat * 256 + (s.getV 1).toNat

/-! ## Display -/

/-- R241: CLS. -/
def Obligations.ClearTurnsEveryPixelOff : Prop :=
  ∀ s : State, encode .cls = 0x00E0#16 ∧ ∃ t, exec .cls s = .next t ∧ t.outcome = .ok ∧
    (∀ (px : Fin 64) (py : Fin 32), t.fb[px][py] = false) ∧ t.clearedFlag = true ∧
    Frame s t [] [.fb, .clearedFlag]

/-- R242, R243: DRW. Every pixel is XORed with the sprite's bit on it, wrapping on its own; VF is 1 exactly when a pixel that was
on is erased, and is written last; DRAW_FLAG is set, for height 0 too; out of range nothing changes. The bit order is the
spec's general knowledge (log entry 9). -/
def Obligations.DrawXorsTheSprite : Prop :=
  ∀ (x y : Reg) (n : Height) (s : State),
    encode (.drwVxVyN x y n) = 0xD000#16 ||| atX x ||| atY y ||| BitVec.ofNat 16 n.val ∧
    (n.val = 0 ∨ s.i.toNat + n.val - 1 ≤ 0xFFF → ∃ t, exec (.drwVxVyN x y n) s = .next t ∧ t.outcome = .ok ∧
      (∀ (px : Fin 64) (py : Fin 32), t.fb[px][py] =
        (s.fb[px][py] ^^ spriteOn (spriteRows s n) (s.getV x).toNat (s.getV y).toNat px.val py.val)) ∧
      (t.getV VF = 1 ∨ t.getV VF = 0) ∧
      (t.getV VF = 1 ↔ ∃ (px : Fin 64) (py : Fin 32), s.fb[px][py] = true ∧ t.fb[px][py] = false) ∧
      t.drawFlag = true ∧ Frame s t [VF] [.fb, .drawFlag]) ∧
    (1 ≤ n.val → 0xFFF < s.i.toNat + n.val - 1 →
      endsIn (.drwVxVyN x y n) s (.addressFault .readRange s.i))

/-- R244: drawing the same sprite at the same position again restores the framebuffer, and reports a collision exactly when the
first draw turned a pixel on. -/
def Obligations.DrawingTwiceRestoresTheScreen : Prop :=
  ∀ (x y : Reg) (n : Height) (s t u : State), exec (.drwVxVyN x y n) s = .next t → t.outcome = .ok →
    u.fb = t.fb → u.i = s.i → (∀ a, u.mem.read a = s.mem.read a) → u.getV x = s.getV x → u.getV y = s.getV y →
    ∃ w, exec (.drwVxVyN x y n) u = .next w ∧ w.outcome = .ok ∧ w.fb = s.fb ∧
      (w.getV VF = 1 ↔ ∃ (px : Fin 64) (py : Fin 32), s.fb[px][py] = false ∧ t.fb[px][py] = true)

/-! ## Keypad and timers -/

/-- R262, R263, R261: SKP and SKNP, and the fault of a key number above 15. -/
def Obligations.KeySkipsTestTheSnapshot : Prop :=
  ∀ (x : Reg) (s : State),
    encode (.skpVx x) = 0xE09E#16 ||| atX x ∧ encode (.sknpVx x) = 0xE0A1#16 ||| atX x ∧
    (∀ k : Key, (s.getV x).toNat = k.val →
      (∃ t, exec (.skpVx x) s = .next t ∧ t.outcome = .ok ∧
        t.pc = (if s.keys[k] = true then s.pc + 2 else s.pc) ∧ Frame s t [] [.pc]) ∧
      (∃ t, exec (.sknpVx x) s = .next t ∧ t.outcome = .ok ∧
        t.pc = (if s.keys[k] = false then s.pc + 2 else s.pc) ∧ Frame s t [] [.pc])) ∧
    (15 < (s.getV x).toNat →
      endsIn (.skpVx x) s (.addressFault .keyIndex (zext16 (s.getV x))) ∧
      endsIn (.sknpVx x) s (.addressFault .keyIndex (zext16 (s.getV x))))

/-- R264, R266: LD Vx, K. With no edge PC goes back by 2 and the outcome is Ok; with edges the register takes one of them, the
lowest under LOWEST and some member under ANY, whatever the free pick is. -/
def Obligations.KeyWaitTakesAnEdgeOrWaits : Prop :=
  ∀ (x : Reg) (s : State),
    encode (.ldVxK x) = 0xF00A#16 ||| atX x ∧
    ((∀ k, ¬ isEdge s k) → ∃ t, exec (.ldVxK x) s = .next t ∧ t.outcome = .ok ∧ t.pc = s.pc - 2 ∧
      Frame s t [] [.pc]) ∧
    ((∃ k, isEdge s k) → ∃ t, exec (.ldVxK x) s = .next t ∧ t.outcome = .ok ∧
      (∃ k : Key, isEdge s k ∧ (t.getV x).toNat = k.val ∧
        (s.params.keywaitPick = .lowest → ∀ j : Key, isEdge s j → k ≤ j)) ∧
      Frame s t [x] [.draws])

/-- R266: after any step no key has an edge, and one press completes at most one key-wait: whatever snapshot the host supplies
next in which no key goes down, the same one included, a key-wait at the next step goes back to itself and stores nothing. -/
def Obligations.AStepConsumesEveryEdge : Prop :=
  ∀ s t : State, step s = .next t →
    (∀ k, ¬ isEdge t k) ∧
    ∀ (x : Reg) (k : Vector Bool 16), (∀ j : Key, k[j] = true → t.keys[j] = true) →
      ∃ w, exec (.ldVxK x) (t.setKeys k).advancePc = .next w ∧ w.outcome = .ok ∧ w.pc = t.pc ∧
        Frame (t.setKeys k).advancePc w [] [.pc]

/-- R267 to R269: the reads and writes of the timers. -/
def Obligations.TimerInstructionsMoveTheTimers : Prop :=
  ∀ (x : Reg) (s : State),
    encode (.ldVxDt x) = 0xF007#16 ||| atX x ∧ encode (.ldDtVx x) = 0xF015#16 ||| atX x ∧
    encode (.ldStVx x) = 0xF018#16 ||| atX x ∧
    (∃ t, exec (.ldVxDt x) s = .next t ∧ t.outcome = .ok ∧ t.getV x = s.dt ∧ Frame s t [x] []) ∧
    (∃ t, exec (.ldDtVx x) s = .next t ∧ t.outcome = .ok ∧ t.dt = s.getV x ∧ Frame s t [] [.dt]) ∧
    (∃ t, exec (.ldStVx x) s = .next t ∧ t.outcome = .ok ∧ t.st = s.getV x ∧ Frame s t [] [.st])

/-! ## Who writes what -/

/-- R43, R47, R48: only CLS and DRW write the framebuffer, only DRW sets DRAW_FLAG and only CLS sets CLEARED_FLAG, and no
instruction clears either flag. -/
def Obligations.OnlyClearAndDrawTouchTheDisplay : Prop :=
  ∀ (i : Instr) (s t : State), exec i s = .next t →
    (t.fb ≠ s.fb → i = .cls ∨ ∃ x y n, i = .drwVxVyN x y n) ∧
    (t.drawFlag ≠ s.drawFlag → t.drawFlag = true ∧ ∃ x y n, i = .drwVxVyN x y n) ∧
    (t.clearedFlag ≠ s.clearedFlag → t.clearedFlag = true ∧ i = .cls)

/-- R75: no instruction but LD B, Vx and LD [I], Vx changes a byte of memory. -/
def Obligations.OnlyStoresChangeMemory : Prop :=
  ∀ (i : Instr) (s t : State), exec i s = .next t →
    (∀ x, i ≠ .ldBVx x) → (∀ x, i ≠ .ldMemVx x) → ∀ a, t.mem.read a = s.mem.read a

/-- R38, R37, R41, R42: only CALL and RET touch the stack, only the listed instructions write I, and only Fx15 and Fx18 write the
timers. -/
def Obligations.StackIndexAndTimersHaveOnlyTheirWriters : Prop :=
  ∀ (i : Instr) (s t : State), exec i s = .next t →
    (t.stack ≠ s.stack ∨ t.sp ≠ s.sp → i = .ret ∨ ∃ nnn, i = .callNnn nnn) ∧
    (t.i ≠ s.i → (∃ nnn, i = .ldINnn nnn) ∨ (∃ x, i = .addIVx x) ∨ (∃ x, i = .ldFVx x) ∨
      (s.params.ldstI = .increment ∧ ∃ x, i = .ldMemVx x ∨ i = .ldVxMem x)) ∧
    (t.dt ≠ s.dt → ∃ x, i = .ldDtVx x) ∧ (t.st ≠ s.st → ∃ x, i = .ldStVx x)

/-! ## Construction and the host interface -/

/-- R331, R332: what construction leaves, for every font and fill. -/
def Obligations.ConstructionLeavesTheSpecsValues : Prop :=
  ∀ (b : Build) (any : ArbitraryFill) (m : Memory) (drawn : Nat),
    (∀ a : Fin 80, (constructMemory b any).read a.val = b.font[a]) ∧
    (∀ a : Fin 4096, 80 ≤ a.val →
      (constructMemory b any).read a.val = if b.resetFill = .zero then 0 else any.mem[a]) ∧
    (let s := constructEngine b any drawn m
     s.pc = 512 ∧ s.sp = 0 ∧ (∀ (px : Fin 64) (py : Fin 32), s.fb[px][py] = false) ∧
       (∀ x, s.getV x = if b.resetFill = .zero then 0 else any.v[x]) ∧
       s.i = (if b.resetFill = .zero then 0 else any.i) ∧ s.dt = (if b.resetFill = .zero then 0 else any.dt) ∧
       s.st = (if b.resetFill = .zero then 0 else any.st) ∧
       (∀ k : Key, s.keys[k] = false ∧ s.prevKeys[k] = false) ∧ s.drawFlag = false ∧ s.clearedFlag = false ∧
       s.latch = none ∧ s.mem = m)

/-- R83, R84: a ROM of at most 3584 bytes stands verbatim from 512 on with every other byte as before; a longer one is rejected
with every byte as before. -/
def Obligations.LoadCopiesTheRomOrChangesNothing : Prop :=
  ∀ (m : Memory) (buffer : List Byte), m.wf = true →
    (buffer.length ≤ 3584 → (load m buffer).1 = .loadOk ∧
      (∀ (j : Nat) (h : j < buffer.length), (load m buffer).2.read (512 + j) = buffer[j]) ∧
      (∀ a, a < 512 ∨ 512 + buffer.length ≤ a → (load m buffer).2.read a = m.read a)) ∧
    (3584 < buffer.length → (load m buffer).1 = .romTooLarge ∧ (load m buffer).2 = m)

/-- R85, R320, R330: a load on a running engine is refused, and a load over a constructed memory answers. That one before memory
exists is refused, and that one is allowed also after a load that succeeded, is the model's choice (log entry 14). -/
def Obligations.LoadIsPartOfBootOnly : Prop :=
  ∀ (b : Build) (buffer : List Byte),
    (∀ s : State, transact b (.engine s) (.load buffer) = .refused .loadAfterEngine) ∧
    transact b .empty (.load buffer) = .refused .hostOperationOutOfOrder ∧
    (∀ (m : Memory) (n : Nat), ∃ m' r, transact b (.memory m n) (.load buffer) = .next (.memory m' n, .load r))

/-- R270: one tick lowers each nonzero timer by exactly 1 and changes no other state, latched or not. -/
def Obligations.TickLowersNonzeroTimersByOne : Prop :=
  ∀ (b : Build) (s : State), ∃ t, transact b (.engine s) .tickTimers = .next (.engine t, .none) ∧
    t.dt.toNat = s.dt.toNat - 1 ∧ t.st.toNat = s.st.toNat - 1 ∧ t = { s with dt := t.dt, st := t.st }

/-- R321, R322, R323: set_keys, the two flag clears and read_snapshot. -/
def Obligations.HostOperationsChangeOnlyTheirOwn : Prop :=
  ∀ (b : Build) (s : State) (k : Vector Bool 16),
    transact b (.engine s) (.setKeys k) = .next (.engine { s with keys := k }, .none) ∧
    transact b (.engine s) .clearDrawFlag = .next (.engine { s with drawFlag := false }, .none) ∧
    transact b (.engine s) .clearClearedFlag = .next (.engine { s with clearedFlag := false }, .none) ∧
    ∃ v, transact b (.engine s) .readSnapshot = .next (.engine s, .snapshot v) ∧ v.drawFlag = s.drawFlag ∧
      v.clearedFlag = s.clearedFlag ∧ v.fb = s.fb ∧ v.dt = s.dt ∧ v.st = s.st
end

