-- ==== Sys2Proof/Laws/State.lean ====
section
/-! SUPPORT. What each state update leaves in each field, so that no later proof unfolds a record update. -/

namespace Sys2Proof.Machine.State

/-! ## Registers -/

theorem getV_setV (s : State) (x y : Reg) (b : Byte) : (s.setV x b).getV y = if y = x then b else s.getV y := by
  by_cases h : y = x
  · simp [getV, setV, h]
  · have hne : x.val ≠ y.val := fun e => h (Fin.ext e.symm)
    simp [getV, setV, h, Vector.getElem_set_ne _ _ hne]

@[simp] theorem getV_setV_same (s : State) (x : Reg) (b : Byte) : (s.setV x b).getV x = b := by simp [getV_setV]

theorem getV_setV_of_ne (s : State) {x y : Reg} (b : Byte) (h : y ≠ x) : (s.setV x b).getV y = s.getV y := by
  simp [getV_setV, h]

@[simp] theorem setV_pc (s : State) (x : Reg) (b : Byte) : (s.setV x b).pc = s.pc := rfl
@[simp] theorem setV_i (s : State) (x : Reg) (b : Byte) : (s.setV x b).i = s.i := rfl
@[simp] theorem setV_stack (s : State) (x : Reg) (b : Byte) : (s.setV x b).stack = s.stack := rfl
@[simp] theorem setV_sp (s : State) (x : Reg) (b : Byte) : (s.setV x b).sp = s.sp := rfl
@[simp] theorem setV_dt (s : State) (x : Reg) (b : Byte) : (s.setV x b).dt = s.dt := rfl
@[simp] theorem setV_st (s : State) (x : Reg) (b : Byte) : (s.setV x b).st = s.st := rfl
@[simp] theorem setV_fb (s : State) (x : Reg) (b : Byte) : (s.setV x b).fb = s.fb := rfl
@[simp] theorem setV_keys (s : State) (x : Reg) (b : Byte) : (s.setV x b).keys = s.keys := rfl
@[simp] theorem setV_prevKeys (s : State) (x : Reg) (b : Byte) : (s.setV x b).prevKeys = s.prevKeys := rfl
@[simp] theorem setV_drawFlag (s : State) (x : Reg) (b : Byte) : (s.setV x b).drawFlag = s.drawFlag := rfl
@[simp] theorem setV_clearedFlag (s : State) (x : Reg) (b : Byte) : (s.setV x b).clearedFlag = s.clearedFlag := rfl
@[simp] theorem setV_latch (s : State) (x : Reg) (b : Byte) : (s.setV x b).latch = s.latch := rfl
@[simp] theorem setV_mem (s : State) (x : Reg) (b : Byte) : (s.setV x b).mem = s.mem := rfl
@[simp] theorem setV_outcome (s : State) (x : Reg) (b : Byte) : (s.setV x b).outcome = s.outcome := rfl
@[simp] theorem setV_params (s : State) (x : Reg) (b : Byte) : (s.setV x b).params = s.params := rfl
@[simp] theorem setV_draws (s : State) (x : Reg) (b : Byte) : (s.setV x b).draws = s.draws := rfl

/-! ## setRegs -/

@[simp] theorem setRegs_v (s : State) (w0 : Vector Byte 16) : (s.setRegs w0).v = w0 := rfl
@[simp] theorem setRegs_pc (s : State) (w0 : Vector Byte 16) : (s.setRegs w0).pc = s.pc := rfl
@[simp] theorem setRegs_i (s : State) (w0 : Vector Byte 16) : (s.setRegs w0).i = s.i := rfl
@[simp] theorem setRegs_stack (s : State) (w0 : Vector Byte 16) : (s.setRegs w0).stack = s.stack := rfl
@[simp] theorem setRegs_sp (s : State) (w0 : Vector Byte 16) : (s.setRegs w0).sp = s.sp := rfl
@[simp] theorem setRegs_dt (s : State) (w0 : Vector Byte 16) : (s.setRegs w0).dt = s.dt := rfl
@[simp] theorem setRegs_st (s : State) (w0 : Vector Byte 16) : (s.setRegs w0).st = s.st := rfl
@[simp] theorem setRegs_fb (s : State) (w0 : Vector Byte 16) : (s.setRegs w0).fb = s.fb := rfl
@[simp] theorem setRegs_keys (s : State) (w0 : Vector Byte 16) : (s.setRegs w0).keys = s.keys := rfl
@[simp] theorem setRegs_prevKeys (s : State) (w0 : Vector Byte 16) : (s.setRegs w0).prevKeys = s.prevKeys := rfl
@[simp] theorem setRegs_drawFlag (s : State) (w0 : Vector Byte 16) : (s.setRegs w0).drawFlag = s.drawFlag := rfl
@[simp] theorem setRegs_clearedFlag (s : State) (w0 : Vector Byte 16) : (s.setRegs w0).clearedFlag = s.clearedFlag := rfl
@[simp] theorem setRegs_latch (s : State) (w0 : Vector Byte 16) : (s.setRegs w0).latch = s.latch := rfl
@[simp] theorem setRegs_mem (s : State) (w0 : Vector Byte 16) : (s.setRegs w0).mem = s.mem := rfl
@[simp] theorem setRegs_outcome (s : State) (w0 : Vector Byte 16) : (s.setRegs w0).outcome = s.outcome := rfl
@[simp] theorem setRegs_params (s : State) (w0 : Vector Byte 16) : (s.setRegs w0).params = s.params := rfl
@[simp] theorem setRegs_draws (s : State) (w0 : Vector Byte 16) : (s.setRegs w0).draws = s.draws := rfl

/-! ## setPc -/

@[simp] theorem setPc_v (s : State) (w0 : Word) : (s.setPc w0).v = s.v := rfl
@[simp] theorem setPc_pc (s : State) (w0 : Word) : (s.setPc w0).pc = w0 := rfl
@[simp] theorem setPc_i (s : State) (w0 : Word) : (s.setPc w0).i = s.i := rfl
@[simp] theorem setPc_stack (s : State) (w0 : Word) : (s.setPc w0).stack = s.stack := rfl
@[simp] theorem setPc_sp (s : State) (w0 : Word) : (s.setPc w0).sp = s.sp := rfl
@[simp] theorem setPc_dt (s : State) (w0 : Word) : (s.setPc w0).dt = s.dt := rfl
@[simp] theorem setPc_st (s : State) (w0 : Word) : (s.setPc w0).st = s.st := rfl
@[simp] theorem setPc_fb (s : State) (w0 : Word) : (s.setPc w0).fb = s.fb := rfl
@[simp] theorem setPc_keys (s : State) (w0 : Word) : (s.setPc w0).keys = s.keys := rfl
@[simp] theorem setPc_prevKeys (s : State) (w0 : Word) : (s.setPc w0).prevKeys = s.prevKeys := rfl
@[simp] theorem setPc_drawFlag (s : State) (w0 : Word) : (s.setPc w0).drawFlag = s.drawFlag := rfl
@[simp] theorem setPc_clearedFlag (s : State) (w0 : Word) : (s.setPc w0).clearedFlag = s.clearedFlag := rfl
@[simp] theorem setPc_latch (s : State) (w0 : Word) : (s.setPc w0).latch = s.latch := rfl
@[simp] theorem setPc_mem (s : State) (w0 : Word) : (s.setPc w0).mem = s.mem := rfl
@[simp] theorem setPc_outcome (s : State) (w0 : Word) : (s.setPc w0).outcome = s.outcome := rfl
@[simp] theorem setPc_params (s : State) (w0 : Word) : (s.setPc w0).params = s.params := rfl
@[simp] theorem setPc_draws (s : State) (w0 : Word) : (s.setPc w0).draws = s.draws := rfl
@[simp] theorem setPc_getV (s : State) (w0 : Word) (y : Reg) : (s.setPc w0).getV y = s.getV y := rfl

/-! ## setI -/

@[simp] theorem setI_v (s : State) (w0 : Word) : (s.setI w0).v = s.v := rfl
@[simp] theorem setI_pc (s : State) (w0 : Word) : (s.setI w0).pc = s.pc := rfl
@[simp] theorem setI_i (s : State) (w0 : Word) : (s.setI w0).i = w0 := rfl
@[simp] theorem setI_stack (s : State) (w0 : Word) : (s.setI w0).stack = s.stack := rfl
@[simp] theorem setI_sp (s : State) (w0 : Word) : (s.setI w0).sp = s.sp := rfl
@[simp] theorem setI_dt (s : State) (w0 : Word) : (s.setI w0).dt = s.dt := rfl
@[simp] theorem setI_st (s : State) (w0 : Word) : (s.setI w0).st = s.st := rfl
@[simp] theorem setI_fb (s : State) (w0 : Word) : (s.setI w0).fb = s.fb := rfl
@[simp] theorem setI_keys (s : State) (w0 : Word) : (s.setI w0).keys = s.keys := rfl
@[simp] theorem setI_prevKeys (s : State) (w0 : Word) : (s.setI w0).prevKeys = s.prevKeys := rfl
@[simp] theorem setI_drawFlag (s : State) (w0 : Word) : (s.setI w0).drawFlag = s.drawFlag := rfl
@[simp] theorem setI_clearedFlag (s : State) (w0 : Word) : (s.setI w0).clearedFlag = s.clearedFlag := rfl
@[simp] theorem setI_latch (s : State) (w0 : Word) : (s.setI w0).latch = s.latch := rfl
@[simp] theorem setI_mem (s : State) (w0 : Word) : (s.setI w0).mem = s.mem := rfl
@[simp] theorem setI_outcome (s : State) (w0 : Word) : (s.setI w0).outcome = s.outcome := rfl
@[simp] theorem setI_params (s : State) (w0 : Word) : (s.setI w0).params = s.params := rfl
@[simp] theorem setI_draws (s : State) (w0 : Word) : (s.setI w0).draws = s.draws := rfl
@[simp] theorem setI_getV (s : State) (w0 : Word) (y : Reg) : (s.setI w0).getV y = s.getV y := rfl

/-! ## setStack -/

@[simp] theorem setStack_v (s : State) (w0 : Vector Word 16) (w1 : Fin 17) : (s.setStack w0 w1).v = s.v := rfl
@[simp] theorem setStack_pc (s : State) (w0 : Vector Word 16) (w1 : Fin 17) : (s.setStack w0 w1).pc = s.pc := rfl
@[simp] theorem setStack_i (s : State) (w0 : Vector Word 16) (w1 : Fin 17) : (s.setStack w0 w1).i = s.i := rfl
@[simp] theorem setStack_stack (s : State) (w0 : Vector Word 16) (w1 : Fin 17) : (s.setStack w0 w1).stack = w0 := rfl
@[simp] theorem setStack_sp (s : State) (w0 : Vector Word 16) (w1 : Fin 17) : (s.setStack w0 w1).sp = w1 := rfl
@[simp] theorem setStack_dt (s : State) (w0 : Vector Word 16) (w1 : Fin 17) : (s.setStack w0 w1).dt = s.dt := rfl
@[simp] theorem setStack_st (s : State) (w0 : Vector Word 16) (w1 : Fin 17) : (s.setStack w0 w1).st = s.st := rfl
@[simp] theorem setStack_fb (s : State) (w0 : Vector Word 16) (w1 : Fin 17) : (s.setStack w0 w1).fb = s.fb := rfl
@[simp] theorem setStack_keys (s : State) (w0 : Vector Word 16) (w1 : Fin 17) : (s.setStack w0 w1).keys = s.keys := rfl
@[simp] theorem setStack_prevKeys (s : State) (w0 : Vector Word 16) (w1 : Fin 17) : (s.setStack w0 w1).prevKeys = s.prevKeys := rfl
@[simp] theorem setStack_drawFlag (s : State) (w0 : Vector Word 16) (w1 : Fin 17) : (s.setStack w0 w1).drawFlag = s.drawFlag := rfl
@[simp] theorem setStack_clearedFlag (s : State) (w0 : Vector Word 16) (w1 : Fin 17) : (s.setStack w0 w1).clearedFlag = s.clearedFlag := rfl
@[simp] theorem setStack_latch (s : State) (w0 : Vector Word 16) (w1 : Fin 17) : (s.setStack w0 w1).latch = s.latch := rfl
@[simp] theorem setStack_mem (s : State) (w0 : Vector Word 16) (w1 : Fin 17) : (s.setStack w0 w1).mem = s.mem := rfl
@[simp] theorem setStack_outcome (s : State) (w0 : Vector Word 16) (w1 : Fin 17) : (s.setStack w0 w1).outcome = s.outcome := rfl
@[simp] theorem setStack_params (s : State) (w0 : Vector Word 16) (w1 : Fin 17) : (s.setStack w0 w1).params = s.params := rfl
@[simp] theorem setStack_draws (s : State) (w0 : Vector Word 16) (w1 : Fin 17) : (s.setStack w0 w1).draws = s.draws := rfl
@[simp] theorem setStack_getV (s : State) (w0 : Vector Word 16) (w1 : Fin 17) (y : Reg) : (s.setStack w0 w1).getV y = s.getV y := rfl

/-! ## setDt -/

@[simp] theorem setDt_v (s : State) (w0 : Byte) : (s.setDt w0).v = s.v := rfl
@[simp] theorem setDt_pc (s : State) (w0 : Byte) : (s.setDt w0).pc = s.pc := rfl
@[simp] theorem setDt_i (s : State) (w0 : Byte) : (s.setDt w0).i = s.i := rfl
@[simp] theorem setDt_stack (s : State) (w0 : Byte) : (s.setDt w0).stack = s.stack := rfl
@[simp] theorem setDt_sp (s : State) (w0 : Byte) : (s.setDt w0).sp = s.sp := rfl
@[simp] theorem setDt_dt (s : State) (w0 : Byte) : (s.setDt w0).dt = w0 := rfl
@[simp] theorem setDt_st (s : State) (w0 : Byte) : (s.setDt w0).st = s.st := rfl
@[simp] theorem setDt_fb (s : State) (w0 : Byte) : (s.setDt w0).fb = s.fb := rfl
@[simp] theorem setDt_keys (s : State) (w0 : Byte) : (s.setDt w0).keys = s.keys := rfl
@[simp] theorem setDt_prevKeys (s : State) (w0 : Byte) : (s.setDt w0).prevKeys = s.prevKeys := rfl
@[simp] theorem setDt_drawFlag (s : State) (w0 : Byte) : (s.setDt w0).drawFlag = s.drawFlag := rfl
@[simp] theorem setDt_clearedFlag (s : State) (w0 : Byte) : (s.setDt w0).clearedFlag = s.clearedFlag := rfl
@[simp] theorem setDt_latch (s : State) (w0 : Byte) : (s.setDt w0).latch = s.latch := rfl
@[simp] theorem setDt_mem (s : State) (w0 : Byte) : (s.setDt w0).mem = s.mem := rfl
@[simp] theorem setDt_outcome (s : State) (w0 : Byte) : (s.setDt w0).outcome = s.outcome := rfl
@[simp] theorem setDt_params (s : State) (w0 : Byte) : (s.setDt w0).params = s.params := rfl
@[simp] theorem setDt_draws (s : State) (w0 : Byte) : (s.setDt w0).draws = s.draws := rfl
@[simp] theorem setDt_getV (s : State) (w0 : Byte) (y : Reg) : (s.setDt w0).getV y = s.getV y := rfl

/-! ## setSt -/

@[simp] theorem setSt_v (s : State) (w0 : Byte) : (s.setSt w0).v = s.v := rfl
@[simp] theorem setSt_pc (s : State) (w0 : Byte) : (s.setSt w0).pc = s.pc := rfl
@[simp] theorem setSt_i (s : State) (w0 : Byte) : (s.setSt w0).i = s.i := rfl
@[simp] theorem setSt_stack (s : State) (w0 : Byte) : (s.setSt w0).stack = s.stack := rfl
@[simp] theorem setSt_sp (s : State) (w0 : Byte) : (s.setSt w0).sp = s.sp := rfl
@[simp] theorem setSt_dt (s : State) (w0 : Byte) : (s.setSt w0).dt = s.dt := rfl
@[simp] theorem setSt_st (s : State) (w0 : Byte) : (s.setSt w0).st = w0 := rfl
@[simp] theorem setSt_fb (s : State) (w0 : Byte) : (s.setSt w0).fb = s.fb := rfl
@[simp] theorem setSt_keys (s : State) (w0 : Byte) : (s.setSt w0).keys = s.keys := rfl
@[simp] theorem setSt_prevKeys (s : State) (w0 : Byte) : (s.setSt w0).prevKeys = s.prevKeys := rfl
@[simp] theorem setSt_drawFlag (s : State) (w0 : Byte) : (s.setSt w0).drawFlag = s.drawFlag := rfl
@[simp] theorem setSt_clearedFlag (s : State) (w0 : Byte) : (s.setSt w0).clearedFlag = s.clearedFlag := rfl
@[simp] theorem setSt_latch (s : State) (w0 : Byte) : (s.setSt w0).latch = s.latch := rfl
@[simp] theorem setSt_mem (s : State) (w0 : Byte) : (s.setSt w0).mem = s.mem := rfl
@[simp] theorem setSt_outcome (s : State) (w0 : Byte) : (s.setSt w0).outcome = s.outcome := rfl
@[simp] theorem setSt_params (s : State) (w0 : Byte) : (s.setSt w0).params = s.params := rfl
@[simp] theorem setSt_draws (s : State) (w0 : Byte) : (s.setSt w0).draws = s.draws := rfl
@[simp] theorem setSt_getV (s : State) (w0 : Byte) (y : Reg) : (s.setSt w0).getV y = s.getV y := rfl

/-! ## setFb -/

@[simp] theorem setFb_v (s : State) (w0 : Framebuffer) : (s.setFb w0).v = s.v := rfl
@[simp] theorem setFb_pc (s : State) (w0 : Framebuffer) : (s.setFb w0).pc = s.pc := rfl
@[simp] theorem setFb_i (s : State) (w0 : Framebuffer) : (s.setFb w0).i = s.i := rfl
@[simp] theorem setFb_stack (s : State) (w0 : Framebuffer) : (s.setFb w0).stack = s.stack := rfl
@[simp] theorem setFb_sp (s : State) (w0 : Framebuffer) : (s.setFb w0).sp = s.sp := rfl
@[simp] theorem setFb_dt (s : State) (w0 : Framebuffer) : (s.setFb w0).dt = s.dt := rfl
@[simp] theorem setFb_st (s : State) (w0 : Framebuffer) : (s.setFb w0).st = s.st := rfl
@[simp] theorem setFb_fb (s : State) (w0 : Framebuffer) : (s.setFb w0).fb = w0 := rfl
@[simp] theorem setFb_keys (s : State) (w0 : Framebuffer) : (s.setFb w0).keys = s.keys := rfl
@[simp] theorem setFb_prevKeys (s : State) (w0 : Framebuffer) : (s.setFb w0).prevKeys = s.prevKeys := rfl
@[simp] theorem setFb_drawFlag (s : State) (w0 : Framebuffer) : (s.setFb w0).drawFlag = s.drawFlag := rfl
@[simp] theorem setFb_clearedFlag (s : State) (w0 : Framebuffer) : (s.setFb w0).clearedFlag = s.clearedFlag := rfl
@[simp] theorem setFb_latch (s : State) (w0 : Framebuffer) : (s.setFb w0).latch = s.latch := rfl
@[simp] theorem setFb_mem (s : State) (w0 : Framebuffer) : (s.setFb w0).mem = s.mem := rfl
@[simp] theorem setFb_outcome (s : State) (w0 : Framebuffer) : (s.setFb w0).outcome = s.outcome := rfl
@[simp] theorem setFb_params (s : State) (w0 : Framebuffer) : (s.setFb w0).params = s.params := rfl
@[simp] theorem setFb_draws (s : State) (w0 : Framebuffer) : (s.setFb w0).draws = s.draws := rfl
@[simp] theorem setFb_getV (s : State) (w0 : Framebuffer) (y : Reg) : (s.setFb w0).getV y = s.getV y := rfl

/-! ## setKeyState -/

@[simp] theorem setKeyState_v (s : State) (w0 : Vector Bool 16) : (s.setKeyState w0).v = s.v := rfl
@[simp] theorem setKeyState_pc (s : State) (w0 : Vector Bool 16) : (s.setKeyState w0).pc = s.pc := rfl
@[simp] theorem setKeyState_i (s : State) (w0 : Vector Bool 16) : (s.setKeyState w0).i = s.i := rfl
@[simp] theorem setKeyState_stack (s : State) (w0 : Vector Bool 16) : (s.setKeyState w0).stack = s.stack := rfl
@[simp] theorem setKeyState_sp (s : State) (w0 : Vector Bool 16) : (s.setKeyState w0).sp = s.sp := rfl
@[simp] theorem setKeyState_dt (s : State) (w0 : Vector Bool 16) : (s.setKeyState w0).dt = s.dt := rfl
@[simp] theorem setKeyState_st (s : State) (w0 : Vector Bool 16) : (s.setKeyState w0).st = s.st := rfl
@[simp] theorem setKeyState_fb (s : State) (w0 : Vector Bool 16) : (s.setKeyState w0).fb = s.fb := rfl
@[simp] theorem setKeyState_keys (s : State) (w0 : Vector Bool 16) : (s.setKeyState w0).keys = w0 := rfl
@[simp] theorem setKeyState_prevKeys (s : State) (w0 : Vector Bool 16) : (s.setKeyState w0).prevKeys = s.prevKeys := rfl
@[simp] theorem setKeyState_drawFlag (s : State) (w0 : Vector Bool 16) : (s.setKeyState w0).drawFlag = s.drawFlag := rfl
@[simp] theorem setKeyState_clearedFlag (s : State) (w0 : Vector Bool 16) : (s.setKeyState w0).clearedFlag = s.clearedFlag := rfl
@[simp] theorem setKeyState_latch (s : State) (w0 : Vector Bool 16) : (s.setKeyState w0).latch = s.latch := rfl
@[simp] theorem setKeyState_mem (s : State) (w0 : Vector Bool 16) : (s.setKeyState w0).mem = s.mem := rfl
@[simp] theorem setKeyState_outcome (s : State) (w0 : Vector Bool 16) : (s.setKeyState w0).outcome = s.outcome := rfl
@[simp] theorem setKeyState_params (s : State) (w0 : Vector Bool 16) : (s.setKeyState w0).params = s.params := rfl
@[simp] theorem setKeyState_draws (s : State) (w0 : Vector Bool 16) : (s.setKeyState w0).draws = s.draws := rfl
@[simp] theorem setKeyState_getV (s : State) (w0 : Vector Bool 16) (y : Reg) : (s.setKeyState w0).getV y = s.getV y := rfl

/-! ## setPrevKeys -/

@[simp] theorem setPrevKeys_v (s : State) (w0 : Vector Bool 16) : (s.setPrevKeys w0).v = s.v := rfl
@[simp] theorem setPrevKeys_pc (s : State) (w0 : Vector Bool 16) : (s.setPrevKeys w0).pc = s.pc := rfl
@[simp] theorem setPrevKeys_i (s : State) (w0 : Vector Bool 16) : (s.setPrevKeys w0).i = s.i := rfl
@[simp] theorem setPrevKeys_stack (s : State) (w0 : Vector Bool 16) : (s.setPrevKeys w0).stack = s.stack := rfl
@[simp] theorem setPrevKeys_sp (s : State) (w0 : Vector Bool 16) : (s.setPrevKeys w0).sp = s.sp := rfl
@[simp] theorem setPrevKeys_dt (s : State) (w0 : Vector Bool 16) : (s.setPrevKeys w0).dt = s.dt := rfl
@[simp] theorem setPrevKeys_st (s : State) (w0 : Vector Bool 16) : (s.setPrevKeys w0).st = s.st := rfl
@[simp] theorem setPrevKeys_fb (s : State) (w0 : Vector Bool 16) : (s.setPrevKeys w0).fb = s.fb := rfl
@[simp] theorem setPrevKeys_keys (s : State) (w0 : Vector Bool 16) : (s.setPrevKeys w0).keys = s.keys := rfl
@[simp] theorem setPrevKeys_prevKeys (s : State) (w0 : Vector Bool 16) : (s.setPrevKeys w0).prevKeys = w0 := rfl
@[simp] theorem setPrevKeys_drawFlag (s : State) (w0 : Vector Bool 16) : (s.setPrevKeys w0).drawFlag = s.drawFlag := rfl
@[simp] theorem setPrevKeys_clearedFlag (s : State) (w0 : Vector Bool 16) : (s.setPrevKeys w0).clearedFlag = s.clearedFlag := rfl
@[simp] theorem setPrevKeys_latch (s : State) (w0 : Vector Bool 16) : (s.setPrevKeys w0).latch = s.latch := rfl
@[simp] theorem setPrevKeys_mem (s : State) (w0 : Vector Bool 16) : (s.setPrevKeys w0).mem = s.mem := rfl
@[simp] theorem setPrevKeys_outcome (s : State) (w0 : Vector Bool 16) : (s.setPrevKeys w0).outcome = s.outcome := rfl
@[simp] theorem setPrevKeys_params (s : State) (w0 : Vector Bool 16) : (s.setPrevKeys w0).params = s.params := rfl
@[simp] theorem setPrevKeys_draws (s : State) (w0 : Vector Bool 16) : (s.setPrevKeys w0).draws = s.draws := rfl
@[simp] theorem setPrevKeys_getV (s : State) (w0 : Vector Bool 16) (y : Reg) : (s.setPrevKeys w0).getV y = s.getV y := rfl

/-! ## setDrawFlag -/

@[simp] theorem setDrawFlag_v (s : State) (w0 : Bool) : (s.setDrawFlag w0).v = s.v := rfl
@[simp] theorem setDrawFlag_pc (s : State) (w0 : Bool) : (s.setDrawFlag w0).pc = s.pc := rfl
@[simp] theorem setDrawFlag_i (s : State) (w0 : Bool) : (s.setDrawFlag w0).i = s.i := rfl
@[simp] theorem setDrawFlag_stack (s : State) (w0 : Bool) : (s.setDrawFlag w0).stack = s.stack := rfl
@[simp] theorem setDrawFlag_sp (s : State) (w0 : Bool) : (s.setDrawFlag w0).sp = s.sp := rfl
@[simp] theorem setDrawFlag_dt (s : State) (w0 : Bool) : (s.setDrawFlag w0).dt = s.dt := rfl
@[simp] theorem setDrawFlag_st (s : State) (w0 : Bool) : (s.setDrawFlag w0).st = s.st := rfl
@[simp] theorem setDrawFlag_fb (s : State) (w0 : Bool) : (s.setDrawFlag w0).fb = s.fb := rfl
@[simp] theorem setDrawFlag_keys (s : State) (w0 : Bool) : (s.setDrawFlag w0).keys = s.keys := rfl
@[simp] theorem setDrawFlag_prevKeys (s : State) (w0 : Bool) : (s.setDrawFlag w0).prevKeys = s.prevKeys := rfl
@[simp] theorem setDrawFlag_drawFlag (s : State) (w0 : Bool) : (s.setDrawFlag w0).drawFlag = w0 := rfl
@[simp] theorem setDrawFlag_clearedFlag (s : State) (w0 : Bool) : (s.setDrawFlag w0).clearedFlag = s.clearedFlag := rfl
@[simp] theorem setDrawFlag_latch (s : State) (w0 : Bool) : (s.setDrawFlag w0).latch = s.latch := rfl
@[simp] theorem setDrawFlag_mem (s : State) (w0 : Bool) : (s.setDrawFlag w0).mem = s.mem := rfl
@[simp] theorem setDrawFlag_outcome (s : State) (w0 : Bool) : (s.setDrawFlag w0).outcome = s.outcome := rfl
@[simp] theorem setDrawFlag_params (s : State) (w0 : Bool) : (s.setDrawFlag w0).params = s.params := rfl
@[simp] theorem setDrawFlag_draws (s : State) (w0 : Bool) : (s.setDrawFlag w0).draws = s.draws := rfl
@[simp] theorem setDrawFlag_getV (s : State) (w0 : Bool) (y : Reg) : (s.setDrawFlag w0).getV y = s.getV y := rfl

/-! ## setClearedFlag -/

@[simp] theorem setClearedFlag_v (s : State) (w0 : Bool) : (s.setClearedFlag w0).v = s.v := rfl
@[simp] theorem setClearedFlag_pc (s : State) (w0 : Bool) : (s.setClearedFlag w0).pc = s.pc := rfl
@[simp] theorem setClearedFlag_i (s : State) (w0 : Bool) : (s.setClearedFlag w0).i = s.i := rfl
@[simp] theorem setClearedFlag_stack (s : State) (w0 : Bool) : (s.setClearedFlag w0).stack = s.stack := rfl
@[simp] theorem setClearedFlag_sp (s : State) (w0 : Bool) : (s.setClearedFlag w0).sp = s.sp := rfl
@[simp] theorem setClearedFlag_dt (s : State) (w0 : Bool) : (s.setClearedFlag w0).dt = s.dt := rfl
@[simp] theorem setClearedFlag_st (s : State) (w0 : Bool) : (s.setClearedFlag w0).st = s.st := rfl
@[simp] theorem setClearedFlag_fb (s : State) (w0 : Bool) : (s.setClearedFlag w0).fb = s.fb := rfl
@[simp] theorem setClearedFlag_keys (s : State) (w0 : Bool) : (s.setClearedFlag w0).keys = s.keys := rfl
@[simp] theorem setClearedFlag_prevKeys (s : State) (w0 : Bool) : (s.setClearedFlag w0).prevKeys = s.prevKeys := rfl
@[simp] theorem setClearedFlag_drawFlag (s : State) (w0 : Bool) : (s.setClearedFlag w0).drawFlag = s.drawFlag := rfl
@[simp] theorem setClearedFlag_clearedFlag (s : State) (w0 : Bool) : (s.setClearedFlag w0).clearedFlag = w0 := rfl
@[simp] theorem setClearedFlag_latch (s : State) (w0 : Bool) : (s.setClearedFlag w0).latch = s.latch := rfl
@[simp] theorem setClearedFlag_mem (s : State) (w0 : Bool) : (s.setClearedFlag w0).mem = s.mem := rfl
@[simp] theorem setClearedFlag_outcome (s : State) (w0 : Bool) : (s.setClearedFlag w0).outcome = s.outcome := rfl
@[simp] theorem setClearedFlag_params (s : State) (w0 : Bool) : (s.setClearedFlag w0).params = s.params := rfl
@[simp] theorem setClearedFlag_draws (s : State) (w0 : Bool) : (s.setClearedFlag w0).draws = s.draws := rfl
@[simp] theorem setClearedFlag_getV (s : State) (w0 : Bool) (y : Reg) : (s.setClearedFlag w0).getV y = s.getV y := rfl

/-! ## setLatch -/

@[simp] theorem setLatch_v (s : State) (w0 : Option FatalOutcome) : (s.setLatch w0).v = s.v := rfl
@[simp] theorem setLatch_pc (s : State) (w0 : Option FatalOutcome) : (s.setLatch w0).pc = s.pc := rfl
@[simp] theorem setLatch_i (s : State) (w0 : Option FatalOutcome) : (s.setLatch w0).i = s.i := rfl
@[simp] theorem setLatch_stack (s : State) (w0 : Option FatalOutcome) : (s.setLatch w0).stack = s.stack := rfl
@[simp] theorem setLatch_sp (s : State) (w0 : Option FatalOutcome) : (s.setLatch w0).sp = s.sp := rfl
@[simp] theorem setLatch_dt (s : State) (w0 : Option FatalOutcome) : (s.setLatch w0).dt = s.dt := rfl
@[simp] theorem setLatch_st (s : State) (w0 : Option FatalOutcome) : (s.setLatch w0).st = s.st := rfl
@[simp] theorem setLatch_fb (s : State) (w0 : Option FatalOutcome) : (s.setLatch w0).fb = s.fb := rfl
@[simp] theorem setLatch_keys (s : State) (w0 : Option FatalOutcome) : (s.setLatch w0).keys = s.keys := rfl
@[simp] theorem setLatch_prevKeys (s : State) (w0 : Option FatalOutcome) : (s.setLatch w0).prevKeys = s.prevKeys := rfl
@[simp] theorem setLatch_drawFlag (s : State) (w0 : Option FatalOutcome) : (s.setLatch w0).drawFlag = s.drawFlag := rfl
@[simp] theorem setLatch_clearedFlag (s : State) (w0 : Option FatalOutcome) : (s.setLatch w0).clearedFlag = s.clearedFlag := rfl
@[simp] theorem setLatch_latch (s : State) (w0 : Option FatalOutcome) : (s.setLatch w0).latch = w0 := rfl
@[simp] theorem setLatch_mem (s : State) (w0 : Option FatalOutcome) : (s.setLatch w0).mem = s.mem := rfl
@[simp] theorem setLatch_outcome (s : State) (w0 : Option FatalOutcome) : (s.setLatch w0).outcome = s.outcome := rfl
@[simp] theorem setLatch_params (s : State) (w0 : Option FatalOutcome) : (s.setLatch w0).params = s.params := rfl
@[simp] theorem setLatch_draws (s : State) (w0 : Option FatalOutcome) : (s.setLatch w0).draws = s.draws := rfl
@[simp] theorem setLatch_getV (s : State) (w0 : Option FatalOutcome) (y : Reg) : (s.setLatch w0).getV y = s.getV y := rfl

/-! ## setMem -/

@[simp] theorem setMem_v (s : State) (w0 : Memory) : (s.setMem w0).v = s.v := rfl
@[simp] theorem setMem_pc (s : State) (w0 : Memory) : (s.setMem w0).pc = s.pc := rfl
@[simp] theorem setMem_i (s : State) (w0 : Memory) : (s.setMem w0).i = s.i := rfl
@[simp] theorem setMem_stack (s : State) (w0 : Memory) : (s.setMem w0).stack = s.stack := rfl
@[simp] theorem setMem_sp (s : State) (w0 : Memory) : (s.setMem w0).sp = s.sp := rfl
@[simp] theorem setMem_dt (s : State) (w0 : Memory) : (s.setMem w0).dt = s.dt := rfl
@[simp] theorem setMem_st (s : State) (w0 : Memory) : (s.setMem w0).st = s.st := rfl
@[simp] theorem setMem_fb (s : State) (w0 : Memory) : (s.setMem w0).fb = s.fb := rfl
@[simp] theorem setMem_keys (s : State) (w0 : Memory) : (s.setMem w0).keys = s.keys := rfl
@[simp] theorem setMem_prevKeys (s : State) (w0 : Memory) : (s.setMem w0).prevKeys = s.prevKeys := rfl
@[simp] theorem setMem_drawFlag (s : State) (w0 : Memory) : (s.setMem w0).drawFlag = s.drawFlag := rfl
@[simp] theorem setMem_clearedFlag (s : State) (w0 : Memory) : (s.setMem w0).clearedFlag = s.clearedFlag := rfl
@[simp] theorem setMem_latch (s : State) (w0 : Memory) : (s.setMem w0).latch = s.latch := rfl
@[simp] theorem setMem_mem (s : State) (w0 : Memory) : (s.setMem w0).mem = w0 := rfl
@[simp] theorem setMem_outcome (s : State) (w0 : Memory) : (s.setMem w0).outcome = s.outcome := rfl
@[simp] theorem setMem_params (s : State) (w0 : Memory) : (s.setMem w0).params = s.params := rfl
@[simp] theorem setMem_draws (s : State) (w0 : Memory) : (s.setMem w0).draws = s.draws := rfl
@[simp] theorem setMem_getV (s : State) (w0 : Memory) (y : Reg) : (s.setMem w0).getV y = s.getV y := rfl

/-! ## setOutcome -/

@[simp] theorem setOutcome_v (s : State) (w0 : StepOutcome) : (s.setOutcome w0).v = s.v := rfl
@[simp] theorem setOutcome_pc (s : State) (w0 : StepOutcome) : (s.setOutcome w0).pc = s.pc := rfl
@[simp] theorem setOutcome_i (s : State) (w0 : StepOutcome) : (s.setOutcome w0).i = s.i := rfl
@[simp] theorem setOutcome_stack (s : State) (w0 : StepOutcome) : (s.setOutcome w0).stack = s.stack := rfl
@[simp] theorem setOutcome_sp (s : State) (w0 : StepOutcome) : (s.setOutcome w0).sp = s.sp := rfl
@[simp] theorem setOutcome_dt (s : State) (w0 : StepOutcome) : (s.setOutcome w0).dt = s.dt := rfl
@[simp] theorem setOutcome_st (s : State) (w0 : StepOutcome) : (s.setOutcome w0).st = s.st := rfl
@[simp] theorem setOutcome_fb (s : State) (w0 : StepOutcome) : (s.setOutcome w0).fb = s.fb := rfl
@[simp] theorem setOutcome_keys (s : State) (w0 : StepOutcome) : (s.setOutcome w0).keys = s.keys := rfl
@[simp] theorem setOutcome_prevKeys (s : State) (w0 : StepOutcome) : (s.setOutcome w0).prevKeys = s.prevKeys := rfl
@[simp] theorem setOutcome_drawFlag (s : State) (w0 : StepOutcome) : (s.setOutcome w0).drawFlag = s.drawFlag := rfl
@[simp] theorem setOutcome_clearedFlag (s : State) (w0 : StepOutcome) : (s.setOutcome w0).clearedFlag = s.clearedFlag := rfl
@[simp] theorem setOutcome_latch (s : State) (w0 : StepOutcome) : (s.setOutcome w0).latch = s.latch := rfl
@[simp] theorem setOutcome_mem (s : State) (w0 : StepOutcome) : (s.setOutcome w0).mem = s.mem := rfl
@[simp] theorem setOutcome_outcome (s : State) (w0 : StepOutcome) : (s.setOutcome w0).outcome = w0 := rfl
@[simp] theorem setOutcome_params (s : State) (w0 : StepOutcome) : (s.setOutcome w0).params = s.params := rfl
@[simp] theorem setOutcome_draws (s : State) (w0 : StepOutcome) : (s.setOutcome w0).draws = s.draws := rfl
@[simp] theorem setOutcome_getV (s : State) (w0 : StepOutcome) (y : Reg) : (s.setOutcome w0).getV y = s.getV y := rfl

/-! ## countDraw -/

@[simp] theorem countDraw_v (s : State) : s.countDraw.v = s.v := rfl
@[simp] theorem countDraw_pc (s : State) : s.countDraw.pc = s.pc := rfl
@[simp] theorem countDraw_i (s : State) : s.countDraw.i = s.i := rfl
@[simp] theorem countDraw_stack (s : State) : s.countDraw.stack = s.stack := rfl
@[simp] theorem countDraw_sp (s : State) : s.countDraw.sp = s.sp := rfl
@[simp] theorem countDraw_dt (s : State) : s.countDraw.dt = s.dt := rfl
@[simp] theorem countDraw_st (s : State) : s.countDraw.st = s.st := rfl
@[simp] theorem countDraw_fb (s : State) : s.countDraw.fb = s.fb := rfl
@[simp] theorem countDraw_keys (s : State) : s.countDraw.keys = s.keys := rfl
@[simp] theorem countDraw_prevKeys (s : State) : s.countDraw.prevKeys = s.prevKeys := rfl
@[simp] theorem countDraw_drawFlag (s : State) : s.countDraw.drawFlag = s.drawFlag := rfl
@[simp] theorem countDraw_clearedFlag (s : State) : s.countDraw.clearedFlag = s.clearedFlag := rfl
@[simp] theorem countDraw_latch (s : State) : s.countDraw.latch = s.latch := rfl
@[simp] theorem countDraw_mem (s : State) : s.countDraw.mem = s.mem := rfl
@[simp] theorem countDraw_outcome (s : State) : s.countDraw.outcome = s.outcome := rfl
@[simp] theorem countDraw_params (s : State) : s.countDraw.params = s.params := rfl
@[simp] theorem countDraw_draws (s : State) : s.countDraw.draws = s.draws + 1 := rfl
@[simp] theorem countDraw_getV (s : State) (y : Reg) : s.countDraw.getV y = s.getV y := rfl

/-! ## skipIf -/

@[simp] theorem skipIf_v (s : State) (c : Bool) : (s.skipIf c).v = s.v := by cases c <;> rfl
@[simp] theorem skipIf_i (s : State) (c : Bool) : (s.skipIf c).i = s.i := by cases c <;> rfl
@[simp] theorem skipIf_stack (s : State) (c : Bool) : (s.skipIf c).stack = s.stack := by cases c <;> rfl
@[simp] theorem skipIf_sp (s : State) (c : Bool) : (s.skipIf c).sp = s.sp := by cases c <;> rfl
@[simp] theorem skipIf_dt (s : State) (c : Bool) : (s.skipIf c).dt = s.dt := by cases c <;> rfl
@[simp] theorem skipIf_st (s : State) (c : Bool) : (s.skipIf c).st = s.st := by cases c <;> rfl
@[simp] theorem skipIf_fb (s : State) (c : Bool) : (s.skipIf c).fb = s.fb := by cases c <;> rfl
@[simp] theorem skipIf_keys (s : State) (c : Bool) : (s.skipIf c).keys = s.keys := by cases c <;> rfl
@[simp] theorem skipIf_prevKeys (s : State) (c : Bool) : (s.skipIf c).prevKeys = s.prevKeys := by cases c <;> rfl
@[simp] theorem skipIf_drawFlag (s : State) (c : Bool) : (s.skipIf c).drawFlag = s.drawFlag := by cases c <;> rfl
@[simp] theorem skipIf_clearedFlag (s : State) (c : Bool) : (s.skipIf c).clearedFlag = s.clearedFlag := by cases c <;> rfl
@[simp] theorem skipIf_latch (s : State) (c : Bool) : (s.skipIf c).latch = s.latch := by cases c <;> rfl
@[simp] theorem skipIf_mem (s : State) (c : Bool) : (s.skipIf c).mem = s.mem := by cases c <;> rfl
@[simp] theorem skipIf_outcome (s : State) (c : Bool) : (s.skipIf c).outcome = s.outcome := by cases c <;> rfl
@[simp] theorem skipIf_params (s : State) (c : Bool) : (s.skipIf c).params = s.params := by cases c <;> rfl
@[simp] theorem skipIf_draws (s : State) (c : Bool) : (s.skipIf c).draws = s.draws := by cases c <;> rfl
@[simp] theorem skipIf_getV (s : State) (c : Bool) (y : Reg) : (s.skipIf c).getV y = s.getV y := by cases c <;> rfl

/-! ## advancePc -/

@[simp] theorem advancePc_v (s : State) : (s.advancePc).v = s.v := rfl
@[simp] theorem advancePc_i (s : State) : (s.advancePc).i = s.i := rfl
@[simp] theorem advancePc_stack (s : State) : (s.advancePc).stack = s.stack := rfl
@[simp] theorem advancePc_sp (s : State) : (s.advancePc).sp = s.sp := rfl
@[simp] theorem advancePc_dt (s : State) : (s.advancePc).dt = s.dt := rfl
@[simp] theorem advancePc_st (s : State) : (s.advancePc).st = s.st := rfl
@[simp] theorem advancePc_fb (s : State) : (s.advancePc).fb = s.fb := rfl
@[simp] theorem advancePc_keys (s : State) : (s.advancePc).keys = s.keys := rfl
@[simp] theorem advancePc_prevKeys (s : State) : (s.advancePc).prevKeys = s.prevKeys := rfl
@[simp] theorem advancePc_drawFlag (s : State) : (s.advancePc).drawFlag = s.drawFlag := rfl
@[simp] theorem advancePc_clearedFlag (s : State) : (s.advancePc).clearedFlag = s.clearedFlag := rfl
@[simp] theorem advancePc_latch (s : State) : (s.advancePc).latch = s.latch := rfl
@[simp] theorem advancePc_mem (s : State) : (s.advancePc).mem = s.mem := rfl
@[simp] theorem advancePc_outcome (s : State) : (s.advancePc).outcome = s.outcome := rfl
@[simp] theorem advancePc_params (s : State) : (s.advancePc).params = s.params := rfl
@[simp] theorem advancePc_draws (s : State) : (s.advancePc).draws = s.draws := rfl
@[simp] theorem advancePc_getV (s : State) (y : Reg) : (s.advancePc).getV y = s.getV y := by rfl

/-! ## logicFlag -/

@[simp] theorem logicFlag_pc (s : State) : (s.logicFlag).pc = s.pc := by unfold logicFlag; split <;> rfl
@[simp] theorem logicFlag_i (s : State) : (s.logicFlag).i = s.i := by unfold logicFlag; split <;> rfl
@[simp] theorem logicFlag_stack (s : State) : (s.logicFlag).stack = s.stack := by unfold logicFlag; split <;> rfl
@[simp] theorem logicFlag_sp (s : State) : (s.logicFlag).sp = s.sp := by unfold logicFlag; split <;> rfl
@[simp] theorem logicFlag_dt (s : State) : (s.logicFlag).dt = s.dt := by unfold logicFlag; split <;> rfl
@[simp] theorem logicFlag_st (s : State) : (s.logicFlag).st = s.st := by unfold logicFlag; split <;> rfl
@[simp] theorem logicFlag_fb (s : State) : (s.logicFlag).fb = s.fb := by unfold logicFlag; split <;> rfl
@[simp] theorem logicFlag_keys (s : State) : (s.logicFlag).keys = s.keys := by unfold logicFlag; split <;> rfl
@[simp] theorem logicFlag_prevKeys (s : State) : (s.logicFlag).prevKeys = s.prevKeys := by unfold logicFlag; split <;> rfl
@[simp] theorem logicFlag_drawFlag (s : State) : (s.logicFlag).drawFlag = s.drawFlag := by unfold logicFlag; split <;> rfl
@[simp] theorem logicFlag_clearedFlag (s : State) : (s.logicFlag).clearedFlag = s.clearedFlag := by unfold logicFlag; split <;> rfl
@[simp] theorem logicFlag_latch (s : State) : (s.logicFlag).latch = s.latch := by unfold logicFlag; split <;> rfl
@[simp] theorem logicFlag_mem (s : State) : (s.logicFlag).mem = s.mem := by unfold logicFlag; split <;> rfl
@[simp] theorem logicFlag_outcome (s : State) : (s.logicFlag).outcome = s.outcome := by unfold logicFlag; split <;> rfl
@[simp] theorem logicFlag_params (s : State) : (s.logicFlag).params = s.params := by unfold logicFlag; split <;> rfl
@[simp] theorem logicFlag_draws (s : State) : (s.logicFlag).draws = s.draws := by unfold logicFlag; split <;> rfl

/-! ## bumpIndex -/

@[simp] theorem bumpIndex_v (s : State) (x : Reg) : (s.bumpIndex x).v = s.v := by unfold bumpIndex; split <;> rfl
@[simp] theorem bumpIndex_pc (s : State) (x : Reg) : (s.bumpIndex x).pc = s.pc := by unfold bumpIndex; split <;> rfl
@[simp] theorem bumpIndex_stack (s : State) (x : Reg) : (s.bumpIndex x).stack = s.stack := by unfold bumpIndex; split <;> rfl
@[simp] theorem bumpIndex_sp (s : State) (x : Reg) : (s.bumpIndex x).sp = s.sp := by unfold bumpIndex; split <;> rfl
@[simp] theorem bumpIndex_dt (s : State) (x : Reg) : (s.bumpIndex x).dt = s.dt := by unfold bumpIndex; split <;> rfl
@[simp] theorem bumpIndex_st (s : State) (x : Reg) : (s.bumpIndex x).st = s.st := by unfold bumpIndex; split <;> rfl
@[simp] theorem bumpIndex_fb (s : State) (x : Reg) : (s.bumpIndex x).fb = s.fb := by unfold bumpIndex; split <;> rfl
@[simp] theorem bumpIndex_keys (s : State) (x : Reg) : (s.bumpIndex x).keys = s.keys := by unfold bumpIndex; split <;> rfl
@[simp] theorem bumpIndex_prevKeys (s : State) (x : Reg) : (s.bumpIndex x).prevKeys = s.prevKeys := by unfold bumpIndex; split <;> rfl
@[simp] theorem bumpIndex_drawFlag (s : State) (x : Reg) : (s.bumpIndex x).drawFlag = s.drawFlag := by unfold bumpIndex; split <;> rfl
@[simp] theorem bumpIndex_clearedFlag (s : State) (x : Reg) : (s.bumpIndex x).clearedFlag = s.clearedFlag := by unfold bumpIndex; split <;> rfl
@[simp] theorem bumpIndex_latch (s : State) (x : Reg) : (s.bumpIndex x).latch = s.latch := by unfold bumpIndex; split <;> rfl
@[simp] theorem bumpIndex_mem (s : State) (x : Reg) : (s.bumpIndex x).mem = s.mem := by unfold bumpIndex; split <;> rfl
@[simp] theorem bumpIndex_outcome (s : State) (x : Reg) : (s.bumpIndex x).outcome = s.outcome := by unfold bumpIndex; split <;> rfl
@[simp] theorem bumpIndex_params (s : State) (x : Reg) : (s.bumpIndex x).params = s.params := by unfold bumpIndex; split <;> rfl
@[simp] theorem bumpIndex_draws (s : State) (x : Reg) : (s.bumpIndex x).draws = s.draws := by unfold bumpIndex; split <;> rfl
@[simp] theorem bumpIndex_getV (s : State) (x : Reg) (y : Reg) : (s.bumpIndex x).getV y = s.getV y := by unfold bumpIndex; split <;> rfl

/-! ## setIndexFlag -/

@[simp] theorem setIndexFlag_pc (s : State) (b : Byte) : (s.setIndexFlag b).pc = s.pc := by unfold setIndexFlag; split <;> rfl
@[simp] theorem setIndexFlag_i (s : State) (b : Byte) : (s.setIndexFlag b).i = s.i := by unfold setIndexFlag; split <;> rfl
@[simp] theorem setIndexFlag_stack (s : State) (b : Byte) : (s.setIndexFlag b).stack = s.stack := by unfold setIndexFlag; split <;> rfl
@[simp] theorem setIndexFlag_sp (s : State) (b : Byte) : (s.setIndexFlag b).sp = s.sp := by unfold setIndexFlag; split <;> rfl
@[simp] theorem setIndexFlag_dt (s : State) (b : Byte) : (s.setIndexFlag b).dt = s.dt := by unfold setIndexFlag; split <;> rfl
@[simp] theorem setIndexFlag_st (s : State) (b : Byte) : (s.setIndexFlag b).st = s.st := by unfold setIndexFlag; split <;> rfl
@[simp] theorem setIndexFlag_fb (s : State) (b : Byte) : (s.setIndexFlag b).fb = s.fb := by unfold setIndexFlag; split <;> rfl
@[simp] theorem setIndexFlag_keys (s : State) (b : Byte) : (s.setIndexFlag b).keys = s.keys := by unfold setIndexFlag; split <;> rfl
@[simp] theorem setIndexFlag_prevKeys (s : State) (b : Byte) : (s.setIndexFlag b).prevKeys = s.prevKeys := by unfold setIndexFlag; split <;> rfl
@[simp] theorem setIndexFlag_drawFlag (s : State) (b : Byte) : (s.setIndexFlag b).drawFlag = s.drawFlag := by unfold setIndexFlag; split <;> rfl
@[simp] theorem setIndexFlag_clearedFlag (s : State) (b : Byte) : (s.setIndexFlag b).clearedFlag = s.clearedFlag := by unfold setIndexFlag; split <;> rfl
@[simp] theorem setIndexFlag_latch (s : State) (b : Byte) : (s.setIndexFlag b).latch = s.latch := by unfold setIndexFlag; split <;> rfl
@[simp] theorem setIndexFlag_mem (s : State) (b : Byte) : (s.setIndexFlag b).mem = s.mem := by unfold setIndexFlag; split <;> rfl
@[simp] theorem setIndexFlag_outcome (s : State) (b : Byte) : (s.setIndexFlag b).outcome = s.outcome := by unfold setIndexFlag; split <;> rfl
@[simp] theorem setIndexFlag_params (s : State) (b : Byte) : (s.setIndexFlag b).params = s.params := by unfold setIndexFlag; split <;> rfl
@[simp] theorem setIndexFlag_draws (s : State) (b : Byte) : (s.setIndexFlag b).draws = s.draws := by unfold setIndexFlag; split <;> rfl

/-! ## setResultAndFlag -/

@[simp] theorem setResultAndFlag_pc (s : State) (x : Reg) (r f : Byte) : (s.setResultAndFlag x r f).pc = s.pc := rfl
@[simp] theorem setResultAndFlag_i (s : State) (x : Reg) (r f : Byte) : (s.setResultAndFlag x r f).i = s.i := rfl
@[simp] theorem setResultAndFlag_stack (s : State) (x : Reg) (r f : Byte) : (s.setResultAndFlag x r f).stack = s.stack := rfl
@[simp] theorem setResultAndFlag_sp (s : State) (x : Reg) (r f : Byte) : (s.setResultAndFlag x r f).sp = s.sp := rfl
@[simp] theorem setResultAndFlag_dt (s : State) (x : Reg) (r f : Byte) : (s.setResultAndFlag x r f).dt = s.dt := rfl
@[simp] theorem setResultAndFlag_st (s : State) (x : Reg) (r f : Byte) : (s.setResultAndFlag x r f).st = s.st := rfl
@[simp] theorem setResultAndFlag_fb (s : State) (x : Reg) (r f : Byte) : (s.setResultAndFlag x r f).fb = s.fb := rfl
@[simp] theorem setResultAndFlag_keys (s : State) (x : Reg) (r f : Byte) : (s.setResultAndFlag x r f).keys = s.keys := rfl
@[simp] theorem setResultAndFlag_prevKeys (s : State) (x : Reg) (r f : Byte) : (s.setResultAndFlag x r f).prevKeys = s.prevKeys := rfl
@[simp] theorem setResultAndFlag_drawFlag (s : State) (x : Reg) (r f : Byte) : (s.setResultAndFlag x r f).drawFlag = s.drawFlag := rfl
@[simp] theorem setResultAndFlag_clearedFlag (s : State) (x : Reg) (r f : Byte) : (s.setResultAndFlag x r f).clearedFlag = s.clearedFlag := rfl
@[simp] theorem setResultAndFlag_latch (s : State) (x : Reg) (r f : Byte) : (s.setResultAndFlag x r f).latch = s.latch := rfl
@[simp] theorem setResultAndFlag_mem (s : State) (x : Reg) (r f : Byte) : (s.setResultAndFlag x r f).mem = s.mem := rfl
@[simp] theorem setResultAndFlag_outcome (s : State) (x : Reg) (r f : Byte) : (s.setResultAndFlag x r f).outcome = s.outcome := rfl
@[simp] theorem setResultAndFlag_params (s : State) (x : Reg) (r f : Byte) : (s.setResultAndFlag x r f).params = s.params := rfl
@[simp] theorem setResultAndFlag_draws (s : State) (x : Reg) (r f : Byte) : (s.setResultAndFlag x r f).draws = s.draws := rfl

/-! ## setLogicResult -/

@[simp] theorem setLogicResult_pc (s : State) (x : Reg) (r : Byte) : (s.setLogicResult x r).pc = s.pc := by simp [setLogicResult]
@[simp] theorem setLogicResult_i (s : State) (x : Reg) (r : Byte) : (s.setLogicResult x r).i = s.i := by simp [setLogicResult]
@[simp] theorem setLogicResult_stack (s : State) (x : Reg) (r : Byte) : (s.setLogicResult x r).stack = s.stack := by simp [setLogicResult]
@[simp] theorem setLogicResult_sp (s : State) (x : Reg) (r : Byte) : (s.setLogicResult x r).sp = s.sp := by simp [setLogicResult]
@[simp] theorem setLogicResult_dt (s : State) (x : Reg) (r : Byte) : (s.setLogicResult x r).dt = s.dt := by simp [setLogicResult]
@[simp] theorem setLogicResult_st (s : State) (x : Reg) (r : Byte) : (s.setLogicResult x r).st = s.st := by simp [setLogicResult]
@[simp] theorem setLogicResult_fb (s : State) (x : Reg) (r : Byte) : (s.setLogicResult x r).fb = s.fb := by simp [setLogicResult]
@[simp] theorem setLogicResult_keys (s : State) (x : Reg) (r : Byte) : (s.setLogicResult x r).keys = s.keys := by simp [setLogicResult]
@[simp] theorem setLogicResult_prevKeys (s : State) (x : Reg) (r : Byte) : (s.setLogicResult x r).prevKeys = s.prevKeys := by simp [setLogicResult]
@[simp] theorem setLogicResult_drawFlag (s : State) (x : Reg) (r : Byte) : (s.setLogicResult x r).drawFlag = s.drawFlag := by simp [setLogicResult]
@[simp] theorem setLogicResult_clearedFlag (s : State) (x : Reg) (r : Byte) : (s.setLogicResult x r).clearedFlag = s.clearedFlag := by simp [setLogicResult]
@[simp] theorem setLogicResult_latch (s : State) (x : Reg) (r : Byte) : (s.setLogicResult x r).latch = s.latch := by simp [setLogicResult]
@[simp] theorem setLogicResult_mem (s : State) (x : Reg) (r : Byte) : (s.setLogicResult x r).mem = s.mem := by simp [setLogicResult]
@[simp] theorem setLogicResult_outcome (s : State) (x : Reg) (r : Byte) : (s.setLogicResult x r).outcome = s.outcome := by simp [setLogicResult]
@[simp] theorem setLogicResult_params (s : State) (x : Reg) (r : Byte) : (s.setLogicResult x r).params = s.params := by simp [setLogicResult]
@[simp] theorem setLogicResult_draws (s : State) (x : Reg) (r : Byte) : (s.setLogicResult x r).draws = s.draws := by simp [setLogicResult]

/-! ## loadRegBlock -/

@[simp] theorem loadRegBlock_pc (s : State) (bytes : List Byte) : (s.loadRegBlock bytes).pc = s.pc := rfl
@[simp] theorem loadRegBlock_i (s : State) (bytes : List Byte) : (s.loadRegBlock bytes).i = s.i := rfl
@[simp] theorem loadRegBlock_stack (s : State) (bytes : List Byte) : (s.loadRegBlock bytes).stack = s.stack := rfl
@[simp] theorem loadRegBlock_sp (s : State) (bytes : List Byte) : (s.loadRegBlock bytes).sp = s.sp := rfl
@[simp] theorem loadRegBlock_dt (s : State) (bytes : List Byte) : (s.loadRegBlock bytes).dt = s.dt := rfl
@[simp] theorem loadRegBlock_st (s : State) (bytes : List Byte) : (s.loadRegBlock bytes).st = s.st := rfl
@[simp] theorem loadRegBlock_fb (s : State) (bytes : List Byte) : (s.loadRegBlock bytes).fb = s.fb := rfl
@[simp] theorem loadRegBlock_keys (s : State) (bytes : List Byte) : (s.loadRegBlock bytes).keys = s.keys := rfl
@[simp] theorem loadRegBlock_prevKeys (s : State) (bytes : List Byte) : (s.loadRegBlock bytes).prevKeys = s.prevKeys := rfl
@[simp] theorem loadRegBlock_drawFlag (s : State) (bytes : List Byte) : (s.loadRegBlock bytes).drawFlag = s.drawFlag := rfl
@[simp] theorem loadRegBlock_clearedFlag (s : State) (bytes : List Byte) : (s.loadRegBlock bytes).clearedFlag = s.clearedFlag := rfl
@[simp] theorem loadRegBlock_latch (s : State) (bytes : List Byte) : (s.loadRegBlock bytes).latch = s.latch := rfl
@[simp] theorem loadRegBlock_mem (s : State) (bytes : List Byte) : (s.loadRegBlock bytes).mem = s.mem := rfl
@[simp] theorem loadRegBlock_outcome (s : State) (bytes : List Byte) : (s.loadRegBlock bytes).outcome = s.outcome := rfl
@[simp] theorem loadRegBlock_params (s : State) (bytes : List Byte) : (s.loadRegBlock bytes).params = s.params := rfl
@[simp] theorem loadRegBlock_draws (s : State) (bytes : List Byte) : (s.loadRegBlock bytes).draws = s.draws := rfl

/-! ## finish -/

@[simp] theorem finish_v (s : State) : (s.finish).v = s.v := by unfold finish; cases s.outcome.fatal? <;> rfl
@[simp] theorem finish_pc (s : State) : (s.finish).pc = s.pc := by unfold finish; cases s.outcome.fatal? <;> rfl
@[simp] theorem finish_i (s : State) : (s.finish).i = s.i := by unfold finish; cases s.outcome.fatal? <;> rfl
@[simp] theorem finish_stack (s : State) : (s.finish).stack = s.stack := by unfold finish; cases s.outcome.fatal? <;> rfl
@[simp] theorem finish_sp (s : State) : (s.finish).sp = s.sp := by unfold finish; cases s.outcome.fatal? <;> rfl
@[simp] theorem finish_dt (s : State) : (s.finish).dt = s.dt := by unfold finish; cases s.outcome.fatal? <;> rfl
@[simp] theorem finish_st (s : State) : (s.finish).st = s.st := by unfold finish; cases s.outcome.fatal? <;> rfl
@[simp] theorem finish_fb (s : State) : (s.finish).fb = s.fb := by unfold finish; cases s.outcome.fatal? <;> rfl
@[simp] theorem finish_keys (s : State) : (s.finish).keys = s.keys := by unfold finish; cases s.outcome.fatal? <;> rfl
@[simp] theorem finish_drawFlag (s : State) : (s.finish).drawFlag = s.drawFlag := by unfold finish; cases s.outcome.fatal? <;> rfl
@[simp] theorem finish_clearedFlag (s : State) : (s.finish).clearedFlag = s.clearedFlag := by unfold finish; cases s.outcome.fatal? <;> rfl
@[simp] theorem finish_mem (s : State) : (s.finish).mem = s.mem := by unfold finish; cases s.outcome.fatal? <;> rfl
@[simp] theorem finish_outcome (s : State) : (s.finish).outcome = s.outcome := by unfold finish; cases s.outcome.fatal? <;> rfl
@[simp] theorem finish_params (s : State) : (s.finish).params = s.params := by unfold finish; cases s.outcome.fatal? <;> rfl
@[simp] theorem finish_draws (s : State) : (s.finish).draws = s.draws := by unfold finish; cases s.outcome.fatal? <;> rfl
@[simp] theorem finish_getV (s : State) (y : Reg) : (s.finish).getV y = s.getV y := by unfold finish; cases s.outcome.fatal? <;> rfl

/-! ## What the composite updates write -/

@[simp] theorem skipIf_pc (s : State) (c : Bool) : (s.skipIf c).pc = if c then s.pc + 2 else s.pc := by cases c <;> rfl

@[simp] theorem advancePc_pc (s : State) : s.advancePc.pc = s.pc + 2 := rfl

/-- The result goes to `V[x]` and the flag to VF, the flag last (R31). -/
theorem getV_setResultAndFlag (s : State) (x y : Reg) (r f : Byte) :
    (s.setResultAndFlag x r f).getV y = if y = VF then f else if y = x then r else s.getV y := by
  simp [setResultAndFlag, getV_setV]

/-- The result of a logic instruction, and VF by P_LOGIC_VF (R184). -/
theorem getV_setLogicResult (s : State) (x y : Reg) (r : Byte) :
    (s.setLogicResult x r).getV y =
      if s.params.logicVF = .reset ∧ y = VF then 0 else if y = x then r else s.getV y := by
  unfold setLogicResult logicFlag
  cases h : s.params.logicVF <;> simp [h, getV_setV]

/-- VF after Fx1E, by P_FX1E_VF (R212). -/
theorem getV_setIndexFlag (s : State) (y : Reg) (b : Byte) :
    (s.setIndexFlag b).getV y = if s.params.fx1eVF = .overflowFlag ∧ y = VF then b else s.getV y := by
  unfold setIndexFlag
  cases h : s.params.fx1eVF <;> simp [getV_setV]

/-- I after Fx55 and Fx65, by P_LDST_I (R215, R216). -/
theorem bumpIndex_i (s : State) (x : Reg) :
    (s.bumpIndex x).i = if s.params.ldstI = .increment then s.i + BitVec.ofNat 16 (x.val + 1) else s.i := by
  unfold bumpIndex
  cases h : s.params.ldstI <;> simp

/-- The registers after Fx65 (R216). -/
theorem getV_loadRegBlock (s : State) (bytes : List Byte) (y : Reg) :
    (s.loadRegBlock bytes).getV y = bytes.getD y.val (s.getV y) := by
  simp [loadRegBlock, getV]

@[simp] theorem finish_prevKeys (s : State) : s.finish.prevKeys = s.keys := by
  unfold finish; cases s.outcome.fatal? <;> rfl

/-- A fatal outcome is latched, any other leaves LATCH (R136). -/
theorem finish_latch (s : State) : s.finish.latch = s.outcome.fatal?.or s.latch := by
  unfold finish; cases s.outcome.fatal? <;> rfl

@[simp] theorem fatal?_eq_some {o : StepOutcome} {f : FatalOutcome} : o.fatal? = some f ↔ o = .fatal f := by
  cases o <;> simp [StepOutcome.fatal?]

theorem complete_eq (s : State) : s.complete = .next (s.setOutcome .ok) := rfl

theorem raiseFatal_eq (s : State) (f : FatalOutcome) : s.raiseFatal f = .next (s.setOutcome (.fatal f)) := rfl

end Sys2Proof.Machine.State
end

