-- ==== Sys2Proof/Laws/Memory.lean ====
section
/-! SUPPORT. Memory: every operation keeps the canonical form, a read after a write gives what was written, a write leaves
every other address alone, and canonical memories that read alike are equal. -/

namespace Sys2Proof.Machine

namespace Memory

/-- The canonical form, one cell at a time. -/
theorem wfFrom_cons {lo k : Nat} {b : Byte} {rest : Memory} :
    wfFrom lo ((k, b) :: rest) = true ↔
      lo ≤ k ∧ k < memSize ∧ b ≠ unlisted k ∧ wfFrom (k + 1) rest = true := by
  simp [wfFrom, and_assoc]

theorem wfFrom_mono {lo lo' : Nat} {m : Memory} (h : lo' ≤ lo) (hm : wfFrom lo m = true) : wfFrom lo' m = true := by
  cases m with
  | nil => rfl
  | cons c rest =>
    obtain ⟨hlo, hrest⟩ := wfFrom_cons.mp hm
    exact wfFrom_cons.mpr ⟨by omega, hrest⟩

/-- Below the first listed address nothing is listed. -/
theorem read_of_lt {lo a : Nat} {m : Memory} (hm : wfFrom lo m = true) (h : a < lo) : m.read a = unlisted a := by
  cases m with
  | nil => rfl
  | cons c rest =>
    obtain ⟨hlo, -⟩ := wfFrom_cons.mp hm
    simp only [read]
    rw [if_neg (by omega), if_pos (by omega)]

theorem wfFrom_erase {lo : Nat} {m : Memory} (hm : wfFrom lo m = true) (a : Nat) : wfFrom lo (m.erase a) = true := by
  induction m generalizing lo with
  | nil => rfl
  | cons c rest ih =>
    obtain ⟨k, b⟩ := c
    have hc := wfFrom_cons.mp hm
    simp only [erase]
    split
    · exact wfFrom_mono (by omega) hc.2.2.2
    · split
      · exact hm
      · exact wfFrom_cons.mpr ⟨hc.1, hc.2.1, hc.2.2.1, ih hc.2.2.2⟩

theorem wfFrom_insert {lo a : Nat} {v : Byte} {m : Memory} (hm : wfFrom lo m = true) (hlo : lo ≤ a) (ha : a < memSize)
    (hv : v ≠ unlisted a) : wfFrom lo (m.insert a v) = true := by
  induction m generalizing lo with
  | nil => exact wfFrom_cons.mpr ⟨hlo, ha, hv, rfl⟩
  | cons c rest ih =>
    obtain ⟨k, b⟩ := c
    have hc := wfFrom_cons.mp hm
    simp only [insert]
    split
    · next h => subst h; exact wfFrom_cons.mpr ⟨hlo, ha, hv, hc.2.2.2⟩
    · split
      · next h => exact wfFrom_cons.mpr ⟨hlo, ha, hv, wfFrom_cons.mpr ⟨h, hc.2⟩⟩
      · exact wfFrom_cons.mpr ⟨hc.1, hc.2.1, hc.2.2.1, ih hc.2.2.2 (by omega)⟩

theorem wf_write {m : Memory} (hm : m.wf = true) {a : Nat} (ha : a < memSize) (v : Byte) : (m.write a v).wf = true := by
  unfold write
  split
  · exact wfFrom_erase hm a
  · next hv => exact wfFrom_insert hm (Nat.zero_le a) ha hv

theorem read_erase {lo : Nat} {m : Memory} (hm : wfFrom lo m = true) (a b : Nat) :
    (m.erase a).read b = if b = a then unlisted b else m.read b := by
  induction m generalizing lo with
  | nil => simp [erase, read]
  | cons c rest ih =>
    obtain ⟨k, v⟩ := c
    have hc := wfFrom_cons.mp hm
    simp only [erase]
    split
    · next h =>
      subst h
      split
      · next hb => subst hb; exact read_of_lt hc.2.2.2 (by omega)
      · next hb =>
        simp only [read]
        rw [if_neg (Ne.symm hb)]
        split
        · next hlt => exact read_of_lt hc.2.2.2 (by omega)
        · rfl
    · split
      · next h1 h2 =>
        split
        · next hb => subst hb; simp [read, h1, h2]
        · rfl
      · next h1 h2 =>
        simp only [read, ih hc.2.2.2]
        split
        · next hk => rw [if_neg (by omega)]
        · split
          · split <;> rfl
          · rfl

theorem read_insert (m : Memory) (a : Nat) (v : Byte) (b : Nat) :
    (m.insert a v).read b = if b = a then v else m.read b := by
  induction m with
  | nil =>
    simp only [insert, read]
    split
    · next h => rw [if_pos h.symm]
    · next h => rw [if_neg (Ne.symm h)]; split <;> rfl
  | cons c rest ih =>
    obtain ⟨k, w⟩ := c
    simp only [insert]
    split
    · next h =>
      subst h
      by_cases hb : b = k
      · simp [read, hb]
      · simp [read, hb, Ne.symm hb]
    · split
      · next h1 h2 =>
        by_cases hb : b = a
        · simp [read, hb]
        · simp only [read, if_neg hb, if_neg (Ne.symm hb)]
          split
          · next hlt => rw [if_neg (by omega), if_pos (by omega)]
          · rfl
      · next h1 h2 =>
        simp only [read, ih]
        by_cases hb : b = a
        · subst hb; simp [h1, h2]
        · simp [hb]

/-- What a byte reads as after a write (R79). -/
theorem read_write {m : Memory} (hm : m.wf = true) (a : Nat) (v : Byte) (b : Nat) :
    (m.write a v).read b = if b = a then v else m.read b := by
  unfold write
  split
  · next h =>
    rw [read_erase hm]
    split
    · next hb => rw [h, hb]
    · rfl
  · exact read_insert m a v b

/-- Storing bytes keeps the canonical form. -/
theorem wf_writeBytes {m : Memory} (hm : m.wf = true) {a : Nat} {bs : List Byte} (h : a + bs.length ≤ memSize) :
    (m.writeBytes a bs).wf = true := by
  induction bs generalizing m a with
  | nil => exact hm
  | cons b bs ih =>
    simp only [List.length_cons] at h
    exact ih (wf_write hm (by omega) b) (by omega)

/-- What a byte reads as after bytes were stored from `a` on: the stored byte inside, the old byte outside. -/
theorem read_writeBytes {m : Memory} (hm : m.wf = true) {a : Nat} {bs : List Byte} (h : a + bs.length ≤ memSize)
    (c : Nat) : (m.writeBytes a bs).read c = if a ≤ c ∧ c < a + bs.length then bs.getD (c - a) 0 else m.read c := by
  induction bs generalizing m a with
  | nil => simp only [writeBytes, List.length_nil]; rw [if_neg (by omega)]
  | cons b bs ih =>
    simp only [List.length_cons] at h
    simp only [writeBytes, List.length_cons]
    rw [ih (wf_write hm (by omega) b) (by omega), read_write hm]
    by_cases hc : c = a
    · subst hc
      rw [if_neg (by omega), if_pos rfl, if_pos (by omega)]
      simp
    · rw [if_neg hc]
      by_cases hin : a + 1 ≤ c ∧ c < a + 1 + bs.length
      · rw [if_pos hin, if_pos (by omega)]
        obtain ⟨d, hd⟩ : ∃ d, c - a = d + 1 := ⟨c - a - 1, by omega⟩
        have : c - (a + 1) = d := by omega
        rw [hd, this]
        simp
      · rw [if_neg hin, if_neg (by omega)]

@[simp] theorem length_readBytes (m : Memory) (a k : Nat) : (m.readBytes a k).length = k := by simp [readBytes]

theorem getD_readBytes (m : Memory) (a k j : Nat) (d : Byte) :
    (m.readBytes a k).getD j d = if j < k then m.read (a + j) else d := by
  by_cases h : j < k <;> simp [readBytes, List.getD_eq_getElem?_getD, h]

/-- Canonical memories that read alike are equal: equal memories are equal data. -/
theorem eq_of_read_eq {lo : Nat} {m m' : Memory} (hm : wfFrom lo m = true) (hm' : wfFrom lo m' = true)
    (h : ∀ a, m.read a = m'.read a) : m = m' := by
  induction m generalizing lo m' with
  | nil =>
    cases m' with
    | nil => rfl
    | cons c rest =>
      obtain ⟨k, b⟩ := c
      have hk := h k
      simp only [read, if_pos] at hk
      exact absurd hk.symm (wfFrom_cons.mp hm').2.2.1
  | cons c rest ih =>
    obtain ⟨k, b⟩ := c
    have hc := wfFrom_cons.mp hm
    cases m' with
    | nil =>
      have hk := h k
      simp only [read, if_pos] at hk
      exact absurd hk hc.2.2.1
    | cons c' rest' =>
      obtain ⟨k', b'⟩ := c'
      have hc' := wfFrom_cons.mp hm'
      have hkk : k = k' := by
        rcases Nat.lt_trichotomy k k' with hlt | heq | hgt
        · have hk := h k
          simp only [read, if_pos] at hk
          rw [if_neg (by omega), if_pos hlt] at hk
          exact absurd hk hc.2.2.1
        · exact heq
        · have hk := h k'
          simp only [read, if_pos] at hk
          rw [if_neg (by omega), if_pos hgt] at hk
          exact absurd hk.symm hc'.2.2.1
      subst hkk
      have hb : b = b' := by simpa [read] using h k
      subst hb
      refine congrArg _ (ih hc.2.2.2 hc'.2.2.2 fun a => ?_)
      by_cases ha : a < k + 1
      · rw [read_of_lt hc.2.2.2 ha, read_of_lt hc'.2.2.2 ha]
      · have hka := h a
        simp only [read] at hka
        rwa [if_neg (by omega), if_neg (by omega), if_neg (by omega), if_neg (by omega)] at hka

end Memory

/-! ## Accesses by address -/

theorem accessInRange_iff {a k : Nat} : accessInRange a k = true ↔ k = 0 ∨ a + k ≤ 4096 :=
  decide_eq_true_iff

namespace State

/-- All that MemRead can do (R15). -/
theorem memRead_cases (s : State) (a : Word) (k : Nat) :
    (accessInRange a.toNat k = true ∧ s.memRead a k = .ok (s.mem.readBytes a.toNat k)) ∨
      (accessInRange a.toNat k = false ∧ s.memRead a k = .error (.addressFault .readRange a)) := by
  unfold memRead
  cases h : accessInRange a.toNat k <;> simp

/-- All that MemWrite can do (R15). -/
theorem memWrite_cases (s : State) (a : Word) (bs : List Byte) :
    (accessInRange a.toNat bs.length = true ∧ s.memWrite a bs = .ok (s.setMem (s.mem.writeBytes a.toNat bs))) ∨
      (accessInRange a.toNat bs.length = false ∧ s.memWrite a bs = .error (.addressFault .writeRange a)) := by
  unfold memWrite
  cases h : accessInRange a.toNat bs.length <;> simp

/-- All that Push can do (R40). -/
theorem push_cases (s : State) (w : Word) :
    (∃ h : s.sp.val < 16, s.push w = .ok (s.setStack (s.stack.set s.sp.val w h) ⟨s.sp.val + 1, by omega⟩)) ∨
      (s.sp.val = 16 ∧ s.push w = .error .stackOverflow) := by
  by_cases h : s.sp.val < 16
  · exact .inl ⟨h, by simp [push, h]⟩
  · exact .inr ⟨by omega, by simp [push, h]⟩

/-- All that Pop can do (R40). -/
theorem pop_cases (s : State) :
    (∃ h : 0 < s.sp.val, s.pop = .ok (s.stack[s.sp.val - 1]'(by omega),
        s.setStack s.stack ⟨s.sp.val - 1, by omega⟩)) ∨
      (s.sp.val = 0 ∧ s.pop = .error .stackUnderflow) := by
  by_cases h : 0 < s.sp.val
  · exact .inl ⟨h, by simp [pop, h]⟩
  · exact .inr ⟨by omega, by simp [pop, h]⟩

/-- All that the key index check can do (R261). -/
theorem keyDown_cases (s : State) (v : Byte) :
    (∃ h : v.toNat < 16, s.keyDown v = .ok s.keys[v.toNat]) ∨
      (15 < v.toNat ∧ s.keyDown v = .error (.addressFault .keyIndex (zext16 v))) := by
  by_cases h : v.toNat < 16
  · exact .inl ⟨h, by simp [keyDown, h]⟩
  · exact .inr ⟨by omega, by simp [keyDown, h]⟩

/-- All that a checked transfer can do (R151). -/
theorem jumpTo_cases (s : State) (tgt : Word) :
    (tgt.toNat % 2 = 0 ∧ s.jumpTo tgt = .next ((s.setPc tgt).setOutcome .ok)) ∨
      (tgt.toNat % 2 = 1 ∧ s.jumpTo tgt = .next (s.setOutcome (.fatal (.addressFault .misalignedTarget tgt)))) := by
  rcases Nat.mod_two_eq_zero_or_one tgt.toNat with h | h
  · exact .inl ⟨h, by simp [jumpTo, targetFault, h, complete]⟩
  · exact .inr ⟨h, by simp [jumpTo, targetFault, h, raiseFatal, raise]⟩

/-- All that the fetch check can do (R131). -/
theorem fetchFault_cases (s : State) :
    (0xFFE < s.pc.toNat ∧ s.fetchFault = some (.addressFault .fetchRange s.pc)) ∨
      (s.pc.toNat ≤ 0xFFE ∧ s.pc.toNat % 2 = 1 ∧ s.fetchFault = some (.addressFault .fetchMisaligned s.pc)) ∨
      (s.pc.toNat ≤ 0xFFE ∧ s.pc.toNat % 2 = 0 ∧ s.fetchFault = none) := by
  unfold fetchFault
  by_cases h1 : 0xFFE < s.pc.toNat
  · simp [h1]
  · rcases Nat.mod_two_eq_zero_or_one s.pc.toNat with h2 | h2 <;> simp [h1, h2] <;> omega

end State
end Sys2Proof.Machine
end

