-- ==== Sys2Proof/Laws/Boot.lean ====
section
/-! SUPPORT. Construction and the ROM load: what memory holds after them, and that `State.reset` is the construction with the
default parameters and no ROM. -/

namespace Sys2Proof.Machine

theorem wf_nil : Memory.wf [] = true := rfl

/-- Constructed memory is canonical. -/
theorem wf_constructMemory (b : Build) (any : ArbitraryFill) : (constructMemory b any).wf = true :=
  Memory.wf_writeBytes wf_nil (by simp [memSize])

/-- What constructed memory holds (R331). -/
theorem read_constructMemory (b : Build) (any : ArbitraryFill) (a : Fin 4096) :
    (constructMemory b any).read a.val = constructedByte b any a := by
  unfold constructMemory
  rw [Memory.read_writeBytes wf_nil (by simp [memSize]), if_pos (by simp)]
  simp [List.getD_eq_getElem?_getD]

/-- A load keeps the canonical form. -/
theorem wf_load {m : Memory} (hm : m.wf = true) (buffer : List Byte) : (load m buffer).2.wf = true := by
  unfold load
  split
  · next h => exact Memory.wf_writeBytes hm (by unfold romMax at h; unfold romBase memSize; omega)
  · exact hm

theorem length_fontTable : fontTable.length = 80 := by decide

/-- The default construction is what memory reads as with nothing listed. -/
theorem constructedByte_default (any : ArbitraryFill) (a : Fin 4096) :
    constructedByte Build.default any a = Memory.unlisted a.val := by
  unfold constructedByte
  by_cases h : a.val < 80
  · rw [dif_pos h]
    simp [Build.default, defaultFont, Memory.unlisted]
  · rw [dif_neg h]
    have hlen : fontTable.length ≤ a.val := by rw [length_fontTable]; omega
    simp [Build.default, ResetFill.choose, Memory.unlisted, List.getD_eq_getElem?_getD,
      List.getElem?_eq_none hlen]

/-- Memory constructed with the defaults lists nothing. -/
theorem constructMemory_default (any : ArbitraryFill) : constructMemory Build.default any = [] := by
  have hwf : Memory.wfFrom 0 (constructMemory Build.default any) = true := wf_constructMemory Build.default any
  refine Memory.eq_of_read_eq hwf wf_nil fun a => ?_
  by_cases h : a < 4096
  · rw [read_constructMemory Build.default any ⟨a, h⟩, constructedByte_default]; rfl
  · unfold constructMemory
    rw [Memory.read_writeBytes wf_nil (by simp [memSize]), if_neg (by simp; omega)]

/-- `State.reset` is the construction with the default parameters over memory with no ROM loaded. -/
theorem reset_eq_construct (any : ArbitraryFill) :
    State.reset = constructEngine Build.default any 0 (constructMemory Build.default any) := by
  rw [constructMemory_default]; rfl

end Sys2Proof.Machine
end

