-- ==== Sys2Proof/Laws/Decode.lean ====
section
/-! SUPPORT. The fields of the words the encoder builds, format by format, and the bytes of a word. -/

namespace Sys2Proof

theorem wordOfBytes_bytes (op : Word) : wordOfBytes (highByte op) (lowByte op) = op := by
  apply BitVec.eq_of_toNat_eq
  simp only [wordOfBytes, highByte, lowByte, BitVec.toNat_ofNat]
  omega

/-! ## Format NNN -/

theorem fieldT_encodeNNN {t : Nat} (ht : t < 16) (nnn : Addr12) : fieldT (encodeNNN t nnn) = t := by
  simp only [fieldT, encodeNNN, BitVec.toNat_ofNat]
  omega

@[simp] theorem fieldNNN_encodeNNN (t : Nat) (nnn : Addr12) : fieldNNN (encodeNNN t nnn) = nnn := by
  apply BitVec.eq_of_toNat_eq
  simp only [fieldNNN, encodeNNN, BitVec.toNat_ofNat]
  omega

/-! ## Format XNN -/

theorem fieldT_encodeXNN {t : Nat} (ht : t < 16) (x : Reg) (nn : Byte) : fieldT (encodeXNN t x nn) = t := by
  simp only [fieldT, encodeXNN, BitVec.toNat_ofNat]
  omega

@[simp] theorem fieldX_encodeXNN (t : Nat) (x : Reg) (nn : Byte) : fieldX (encodeXNN t x nn) = x := by
  apply Fin.ext
  simp only [fieldX, encodeXNN, BitVec.toNat_ofNat, Fin.val_ofNat]
  omega

@[simp] theorem fieldNN_encodeXNN (t : Nat) (x : Reg) (nn : Byte) : fieldNN (encodeXNN t x nn) = nn := by
  apply BitVec.eq_of_toNat_eq
  simp only [fieldNN, encodeXNN, BitVec.toNat_ofNat]
  omega

/-! ## Formats XY and XYN -/

theorem fieldT_encodeXYN {t n : Nat} (ht : t < 16) (hn : n < 16) (x y : Reg) : fieldT (encodeXYN t x y n) = t := by
  simp only [fieldT, encodeXYN, BitVec.toNat_ofNat]
  omega

theorem fieldX_encodeXYN {n : Nat} (t : Nat) (hn : n < 16) (x y : Reg) : fieldX (encodeXYN t x y n) = x := by
  apply Fin.ext
  simp only [fieldX, encodeXYN, BitVec.toNat_ofNat, Fin.val_ofNat]
  omega

theorem fieldY_encodeXYN {n : Nat} (t : Nat) (hn : n < 16) (x y : Reg) : fieldY (encodeXYN t x y n) = y := by
  apply Fin.ext
  simp only [fieldY, encodeXYN, BitVec.toNat_ofNat, Fin.val_ofNat]
  omega

theorem fieldN_encodeXYN {n : Nat} (t : Nat) (hn : n < 16) (x y : Reg) : (fieldN (encodeXYN t x y n)).val = n := by
  simp only [fieldN, encodeXYN, BitVec.toNat_ofNat, Fin.val_ofNat]
  omega

/-! ## Format X -/

theorem fieldT_encodeX {t sub : Nat} (ht : t < 16) (hs : sub < 256) (x : Reg) : fieldT (encodeX t x sub) = t := by
  simp only [fieldT, encodeX, BitVec.toNat_ofNat]
  omega

theorem fieldX_encodeX {sub : Nat} (t : Nat) (hs : sub < 256) (x : Reg) : fieldX (encodeX t x sub) = x := by
  apply Fin.ext
  simp only [fieldX, encodeX, BitVec.toNat_ofNat, Fin.val_ofNat]
  omega

theorem fieldNN_encodeX {sub : Nat} (t : Nat) (hs : sub < 256) (x : Reg) :
    (fieldNN (encodeX t x sub)).toNat = sub := by
  simp only [fieldNN, encodeX, BitVec.toNat_ofNat]
  omega

end Sys2Proof
end

