-- ==== Sys2Proof/Laws/Display.lean ====
section
/-! SUPPORT. The framebuffer: what a pixel holds after a write, after one sprite bit, after a sprite row and after a sprite,
and when a draw reports a collision. -/

namespace Sys2Proof.Machine

namespace Framebuffer

theorem pixel_setPixel (fb : Framebuffer) (px py qx qy : Nat) (b : Bool) :
    (fb.setPixel px py b).pixel qx qy =
      if qx % 64 = px % 64 ∧ qy % 32 = py % 32 then b else fb.pixel qx qy := by
  unfold pixel setPixel
  by_cases hx : qx % 64 = px % 64
  · by_cases hy : qy % 32 = py % 32
    · simp [hx, hy]
    · simp [hx, hy, Vector.getElem_set_ne _ _ (Ne.symm hy)]
  · simp [hx, Vector.getElem_set_ne _ _ (Ne.symm hx)]

@[simp] theorem pixel_clear (px py : Nat) : clear.pixel px py = false := by simp [pixel, clear]

/-- Framebuffers whose pixels agree are equal. -/
theorem eq_of_pixel_eq {fb fb' : Framebuffer} (h : ∀ px py, fb.pixel px py = fb'.pixel px py) : fb = fb' := by
  apply Vector.ext
  intro x hx
  apply Vector.ext
  intro y hy
  have := h x y
  unfold pixel at this
  simpa [Nat.mod_eq_of_lt hx, Nat.mod_eq_of_lt hy] using this

end Framebuffer

/-- One sprite bit flips its own pixel alone. -/
theorem pixel_plotBit (px py qx qy : Nat) (bit : Bool) (acc : Framebuffer × Bool) :
    (plotBit px py bit acc).1.pixel qx qy =
      (acc.1.pixel qx qy ^^ (bit && decide (qx % 64 = px % 64 ∧ qy % 32 = py % 32))) := by
  cases bit
  · simp [plotBit]
  · simp only [plotBit, if_true, Framebuffer.pixel_setPixel, Bool.true_and]
    by_cases h : qx % 64 = px % 64 ∧ qy % 32 = py % 32
    · have : acc.1.pixel qx qy = acc.1.pixel px py := by simp [Framebuffer.pixel, h.1, h.2]
      simp [h, this]
    · simp [h]

theorem hit_plotBit (px py : Nat) (bit : Bool) (acc : Framebuffer × Bool) :
    (plotBit px py bit acc).2 = (acc.2 || (bit && acc.1.pixel px py)) := by
  cases bit <;> simp [plotBit]

/-- The column of a pixel, counted from `cx`. -/
theorem column_iff {cx c qx : Nat} (hc : c < 64) : qx % 64 = (cx + c) % 64 ↔ c = (qx + 64 - cx % 64) % 64 := by
  omega

/-- The columns of a list flip the pixels under their 1 bits. -/
theorem pixel_plotColumns (cx y : Nat) (row : Byte) (cs : List Nat) (acc : Framebuffer × Bool) (qx qy : Nat)
    (hnd : cs.Nodup) (hlt : ∀ c ∈ cs, c < 64) :
    (plotColumns cx y row cs acc).1.pixel qx qy =
      (acc.1.pixel qx qy ^^ (decide (qy % 32 = y % 32) &&
        cs.any (fun c => spriteBit row c && decide (c = (qx + 64 - cx % 64) % 64)))) := by
  induction cs generalizing acc with
  | nil => simp [plotColumns]
  | cons c cs ih =>
    rw [List.nodup_cons] at hnd
    have hc := hlt c (by simp)
    simp only [plotColumns]
    rw [ih _ hnd.2 (fun d hd => hlt d (by simp [hd])), pixel_plotBit, List.any_cons]
    simp only [column_iff hc]
    by_cases hcol : c = (qx + 64 - cx % 64) % 64
    · have hrest : cs.any (fun d => spriteBit row d && decide (d = (qx + 64 - cx % 64) % 64)) = false := by
        rw [List.any_eq_false]
        intro d hd
        have : d ≠ (qx + 64 - cx % 64) % 64 := fun e => hnd.1 (by rw [hcol, ← e]; exact hd)
        simp [this]
      rw [hrest]
      cases spriteBit row c <;> simp [hcol]
    · simp [hcol]

/-- The columns of a list report a collision when one of their 1 bits meets a pixel that is on. -/
theorem hit_plotColumns (cx y : Nat) (row : Byte) (cs : List Nat) (acc : Framebuffer × Bool)
    (hnd : cs.Nodup) (hlt : ∀ c ∈ cs, c < 64) :
    (plotColumns cx y row cs acc).2 = (acc.2 || cs.any (fun c => spriteBit row c && acc.1.pixel (cx + c) y)) := by
  induction cs generalizing acc with
  | nil => simp [plotColumns]
  | cons c cs ih =>
    rw [List.nodup_cons] at hnd
    have hc := hlt c (by simp)
    simp only [plotColumns]
    rw [ih _ hnd.2 (fun d hd => hlt d (by simp [hd])), hit_plotBit, List.any_cons, Bool.or_assoc]
    congr 2
    rw [Bool.eq_iff_iff, List.any_eq_true, List.any_eq_true]
    have key : ∀ d ∈ cs, (plotBit (cx + c) y (spriteBit row c) acc).1.pixel (cx + d) y = acc.1.pixel (cx + d) y := by
      intro d hd
      have hne : d ≠ c := fun e => hnd.1 (by rw [← e]; exact hd)
      have hd64 := hlt d (by simp [hd])
      have : ¬ ((cx + d) % 64 = (cx + c) % 64) := by omega
      simp [pixel_plotBit, this]
    constructor
    · rintro ⟨d, hd, h⟩; exact ⟨d, hd, by rwa [key d hd] at h⟩
    · rintro ⟨d, hd, h⟩; exact ⟨d, hd, by rwa [key d hd]⟩

theorem any_range_eight (p : Nat → Bool) (c0 : Nat) :
    (List.range 8).any (fun c => p c && decide (c = c0)) = (decide (c0 < 8) && p c0) := by
  rw [Bool.eq_iff_iff, List.any_eq_true]
  simp only [List.mem_range, Bool.and_eq_true, decide_eq_true_eq]
  constructor
  · rintro ⟨c, hc, hp, rfl⟩; exact ⟨hc, hp⟩
  · rintro ⟨hc, hp⟩; exact ⟨c0, hc, hp, rfl⟩

/-- One sprite row flips the pixels under its 1 bits. -/
theorem pixel_plotRow (cx y : Nat) (row : Byte) (acc : Framebuffer × Bool) (qx qy : Nat) :
    (plotColumns cx y row (List.range 8) acc).1.pixel qx qy =
      (acc.1.pixel qx qy ^^ (decide (qy % 32 = y % 32) && (decide ((qx + 64 - cx % 64) % 64 < 8) &&
        spriteBit row ((qx + 64 - cx % 64) % 64)))) := by
  rw [pixel_plotColumns cx y row _ acc qx qy List.nodup_range (fun c hc => by rw [List.mem_range] at hc; omega),
    any_range_eight]

theorem spriteOn_cons (row : Byte) (rows : List Byte) (cx y qx qy : Nat) (h : rows.length < 32) :
    spriteOn (row :: rows) cx y qx qy =
      ((decide (qy % 32 = y % 32) && (decide ((qx + 64 - cx % 64) % 64 < 8) &&
        spriteBit row ((qx + 64 - cx % 64) % 64))) ^^ spriteOn rows cx (y + 1) qx qy) := by
  unfold spriteOn spriteBit
  simp only [List.length_cons]
  by_cases hr : qy % 32 = y % 32
  · have h0 : (qy + 32 - y % 32) % 32 = 0 := by omega
    have h1 : ¬ (qy + 32 - (y + 1) % 32) % 32 < rows.length := by omega
    simp [hr, h0, h1]
  · obtain ⟨d, hd⟩ : ∃ d, (qy + 32 - y % 32) % 32 = d + 1 := ⟨(qy + 32 - y % 32) % 32 - 1, by omega⟩
    have h1 : (qy + 32 - (y + 1) % 32) % 32 = d := by omega
    simp [hr, hd, h1]

/-- What a pixel holds after the rows of a sprite (R242). -/
theorem pixel_plotRows (cx y : Nat) (rows : List Byte) (acc : Framebuffer × Bool) (qx qy : Nat)
    (h : rows.length ≤ 32) :
    (plotRows cx y rows acc).1.pixel qx qy = (acc.1.pixel qx qy ^^ spriteOn rows cx y qx qy) := by
  induction rows generalizing y acc with
  | nil => simp [plotRows, spriteOn]
  | cons row rows ih =>
    simp only [List.length_cons] at h
    rw [plotRows, ih _ _ (by omega), pixel_plotRow, spriteOn_cons _ _ _ _ _ _ (by omega), Bool.xor_assoc]

/-- When the rows of a sprite report a collision (R242). -/
theorem hit_plotRows (cx y : Nat) (rows : List Byte) (acc : Framebuffer × Bool) (h : rows.length ≤ 32) :
    (plotRows cx y rows acc).2 = true ↔
      acc.2 = true ∨ ∃ qx qy, qx < 64 ∧ qy < 32 ∧ acc.1.pixel qx qy = true ∧ spriteOn rows cx y qx qy = true := by
  induction rows generalizing y acc with
  | nil => simp [plotRows, spriteOn]
  | cons row rows ih =>
    simp only [List.length_cons] at h
    rw [plotRows, ih _ _ (by omega),
      hit_plotColumns cx y row _ acc List.nodup_range (fun c hc => by rw [List.mem_range] at hc; omega),
      Bool.or_eq_true, or_assoc, List.any_eq_true]
    refine or_congr Iff.rfl ?_
    have hmod : ∀ qx qy, acc.1.pixel (qx % 64) (qy % 32) = acc.1.pixel qx qy := by
      intro qx qy; simp [Framebuffer.pixel]
    constructor
    · rintro (⟨c, hc, hp⟩ | ⟨qx, qy, hqx, hqy, hp, hs⟩)
      · rw [List.mem_range] at hc
        rw [Bool.and_eq_true] at hp
        refine ⟨(cx + c) % 64, y % 32, Nat.mod_lt _ (by decide), Nat.mod_lt _ (by decide), ?_, ?_⟩
        · rw [hmod]; exact hp.2
        · have hcol : ((cx + c) % 64 + 64 - cx % 64) % 64 = c := by omega
          have hrow : spriteOn rows cx (y + 1) ((cx + c) % 64) (y % 32) = false := by
            have : ¬ (y % 32 + 32 - (y + 1) % 32) % 32 < rows.length := by omega
            simp [spriteOn, this]
          rw [spriteOn_cons _ _ _ _ _ _ (by omega), hcol, hrow]
          simp [hc, hp.1]
      · rw [pixel_plotRow] at hp
        have hr : ¬ qy % 32 = y % 32 := by
          intro e
          have : ¬ (qy + 32 - (y + 1) % 32) % 32 < rows.length := by omega
          simp [spriteOn, this] at hs
        refine ⟨qx, qy, hqx, hqy, by simpa [hr] using hp, ?_⟩
        rw [spriteOn_cons _ _ _ _ _ _ (by omega)]
        simp [hr, hs]
    · rintro ⟨qx, qy, hqx, hqy, hp, hs⟩
      rw [spriteOn_cons _ _ _ _ _ _ (by omega)] at hs
      by_cases hr : qy % 32 = y % 32
      · have hrow : spriteOn rows cx (y + 1) qx qy = false := by
          have : ¬ (qy + 32 - (y + 1) % 32) % 32 < rows.length := by omega
          simp [spriteOn, this]
        rw [hrow] at hs
        simp only [hr, decide_true, Bool.true_and, Bool.xor_false, Bool.and_eq_true, decide_eq_true_eq] at hs
        refine .inl ⟨(qx + 64 - cx % 64) % 64, List.mem_range.mpr hs.1, ?_⟩
        have hpix : acc.1.pixel (cx + (qx + 64 - cx % 64) % 64) y = acc.1.pixel qx qy := by
          have : (cx + (qx + 64 - cx % 64) % 64) % 64 = qx % 64 := by omega
          simp [Framebuffer.pixel, this, hr]
        rw [hpix, hs.2, hp]; rfl
      · refine .inr ⟨qx, qy, hqx, hqy, ?_, ?_⟩
        · rw [pixel_plotRow]; simp [hr, hp]
        · simpa [hr] using hs

/-- What a pixel holds after a sprite was drawn (R242). -/
theorem pixel_drawSprite (fb : Framebuffer) (cx cy : Nat) (rows : List Byte) (qx qy : Nat) (h : rows.length ≤ 32) :
    (drawSprite fb cx cy rows).1.pixel qx qy = (fb.pixel qx qy ^^ spriteOn rows cx cy qx qy) :=
  pixel_plotRows cx cy rows (fb, false) qx qy h

/-- When drawing a sprite reports a collision (R242). -/
theorem hit_drawSprite (fb : Framebuffer) (cx cy : Nat) (rows : List Byte) (h : rows.length ≤ 32) :
    (drawSprite fb cx cy rows).2 = true ↔
      ∃ qx qy, qx < 64 ∧ qy < 32 ∧ fb.pixel qx qy = true ∧ spriteOn rows cx cy qx qy = true := by
  unfold drawSprite
  simpa using hit_plotRows cx cy rows (fb, false) h

end Sys2Proof.Machine
end

