-- ==== Sys2Proof/Laws/Encoding.lean ====
section
/-! SUPPORT. The formats of the encoder as the spec's shifts and ORs: each format is its tag, its fields in their places, and its
fixed low bits, ORed. -/

namespace Sys2Proof

/-- An OR of fields that do not overlap is a sum. -/
theorem toNat_or_of_disjoint {a b : Word} (k : Nat) (ha : a.toNat % 2 ^ k = 0) (hb : b.toNat < 2 ^ k) :
    (a ||| b).toNat = a.toNat + b.toNat := by
  have e : a.toNat = 2 ^ k * (a.toNat / 2 ^ k) := by have := Nat.div_add_mod a.toNat (2 ^ k); omega
  rw [BitVec.toNat_or, e, Nat.two_pow_add_eq_or_of_lt hb]

theorem toNat_xField (x : Reg) : (BitVec.ofNat 16 x.val <<< 8).toNat = x.val * 256 := by
  have := x.isLt
  simp [Nat.shiftLeft_eq]; omega

theorem toNat_yField (y : Reg) : (BitVec.ofNat 16 y.val <<< 4).toNat = y.val * 16 := by
  have := y.isLt
  simp [Nat.shiftLeft_eq]; omega

theorem encodeNNN_eq_or (t : Nat) (nnn : Addr12) :
    encodeNNN t nnn = BitVec.ofNat 16 (t * 4096) ||| zext16 nnn := by
  have := nnn.isLt
  apply BitVec.eq_of_toNat_eq
  rw [toNat_or_of_disjoint 12 (by simp only [BitVec.toNat_ofNat]; omega) (by simp; omega)]
  simp [encodeNNN]; omega

/-- The tag and the x field. -/
theorem toNat_tag_or_xField {t : Nat} (ht : t < 16) (x : Reg) :
    (BitVec.ofNat 16 (t * 4096) ||| BitVec.ofNat 16 x.val <<< 8).toNat = t * 4096 + x.val * 256 := by
  have := x.isLt
  have hx := toNat_xField x
  rw [toNat_or_of_disjoint 12 (by simp only [BitVec.toNat_ofNat]; omega) (by omega), hx, BitVec.toNat_ofNat]
  omega

theorem encodeXNN_eq_or {t : Nat} (ht : t < 16) (x : Reg) (nn : Byte) :
    encodeXNN t x nn = BitVec.ofNat 16 (t * 4096) ||| BitVec.ofNat 16 x.val <<< 8 ||| zext16 nn := by
  have := nn.isLt
  have := x.isLt
  have e := toNat_tag_or_xField ht x
  apply BitVec.eq_of_toNat_eq
  rw [toNat_or_of_disjoint 8 (by rw [e]; omega) (by simp; omega), e]
  simp [encodeXNN]; omega

theorem encodeXYN_eq_or {t n : Nat} (ht : t < 16) (hn : n < 16) (x y : Reg) :
    encodeXYN t x y n =
      BitVec.ofNat 16 (t * 4096) ||| BitVec.ofNat 16 x.val <<< 8 ||| BitVec.ofNat 16 y.val <<< 4 ||| BitVec.ofNat 16 n := by
  have := y.isLt
  have := x.isLt
  have hy := toNat_yField y
  have e := toNat_tag_or_xField ht x
  have e2 : (BitVec.ofNat 16 (t * 4096) ||| BitVec.ofNat 16 x.val <<< 8 ||| BitVec.ofNat 16 y.val <<< 4).toNat =
      t * 4096 + x.val * 256 + y.val * 16 := by
    rw [toNat_or_of_disjoint 8 (by omega) (by omega), e, hy]
  apply BitVec.eq_of_toNat_eq
  rw [toNat_or_of_disjoint 4 (by rw [e2]; omega) (by simp; omega), e2]
  simp [encodeXYN]; omega

theorem encodeX_eq_or {t sub : Nat} (ht : t < 16) (hs : sub < 256) (x : Reg) :
    encodeX t x sub = BitVec.ofNat 16 (t * 4096) ||| BitVec.ofNat 16 x.val <<< 8 ||| BitVec.ofNat 16 sub := by
  have := x.isLt
  have e := toNat_tag_or_xField ht x
  apply BitVec.eq_of_toNat_eq
  rw [toNat_or_of_disjoint 8 (by rw [e]; omega) (by simp; omega), e]
  simp [encodeX]; omega

end Sys2Proof
end

