-- ==== Sys2Proof/Laws/Exec.lean ====
section
/-! SUPPORT. All that one instruction can do, said once: it takes its normal effect with the outcome Ok, or it raises one of its
outcomes and changes nothing else. -/

namespace Sys2Proof.Machine

/-- The state an instruction leaves when it completes, before the outcome is set. -/
def effect (s : State) : Instr → State
  | .sysNnn _ => s
  | .cls => (s.setFb Framebuffer.clear).setClearedFlag true
  | .ret => if h : 0 < s.sp.val then
      (s.setStack s.stack ⟨s.sp.val - 1, by omega⟩).setPc (s.stack[s.sp.val - 1]'(by omega)) else s
  | .jpNnn nnn => s.setPc (zext16 nnn)
  | .callNnn nnn => if h : s.sp.val < 16 then
      (s.setStack (s.stack.set s.sp.val s.pc h) ⟨s.sp.val + 1, by omega⟩).setPc (zext16 nnn) else s
  | .seVxNn x nn => s.skipIf (s.getV x == nn)
  | .sneVxNn x nn => s.skipIf (s.getV x != nn)
  | .seVxVy x y => s.skipIf (s.getV x == s.getV y)
  | .ldVxNn x nn => s.setV x nn
  | .addVxNn x nn => s.setV x (s.getV x + nn)
  | .ldVxVy x y => s.setV x (s.getV y)
  | .orVxVy x y => s.setLogicResult x (s.getV x ||| s.getV y)
  | .andVxVy x y => s.setLogicResult x (s.getV x &&& s.getV y)
  | .xorVxVy x y => s.setLogicResult x (s.getV x ^^^ s.getV y)
  | .addVxVy x y => s.setResultAndFlag x (s.getV x + s.getV y) (carryFlag (s.getV x) (s.getV y))
  | .subVxVy x y => s.setResultAndFlag x (s.getV x - s.getV y) (notBorrowFlag (s.getV x) (s.getV y))
  | .shrVxVy x y => s.setResultAndFlag x (s.shiftOperand x y >>> 1) (shiftRightFlag (s.shiftOperand x y))
  | .subnVxVy x y => s.setResultAndFlag x (s.getV y - s.getV x) (notBorrowFlag (s.getV y) (s.getV x))
  | .shlVxVy x y => s.setResultAndFlag x (s.shiftOperand x y <<< 1) (shiftLeftFlag (s.shiftOperand x y))
  | .sneVxVy x y => s.skipIf (s.getV x != s.getV y)
  | .ldINnn nnn => s.setI (zext16 nnn)
  | .jpV0Nnn nnn => s.setPc (s.offsetTarget nnn)
  | .rndVxNn x nn => s.countDraw.setV x (Config.randomByte s.draws &&& nn)
  | .drwVxVyN x y n =>
    let drawn := drawSprite s.fb (s.getV x).toNat (s.getV y).toNat (s.mem.readBytes s.i.toNat n.val)
    ((s.setFb drawn.1).setDrawFlag true).setV VF (flagByte drawn.2)
  | .skpVx x => if h : (s.getV x).toNat < 16 then s.skipIf s.keys[(s.getV x).toNat] else s
  | .sknpVx x => if h : (s.getV x).toNat < 16 then s.skipIf (!s.keys[(s.getV x).toNat]) else s
  | .ldVxDt x => s.setV x s.dt
  | .ldVxK x => match s.edges with
    | [] => s.setPc (s.pc - 2)
    | k :: ks => (s.pickKey k ks).2.setV x (BitVec.ofNat 8 (s.pickKey k ks).1.val)
  | .ldDtVx x => s.setDt (s.getV x)
  | .ldStVx x => s.setSt (s.getV x)
  | .addIVx x => (s.setI (s.i + zext16 (s.getV x))).setIndexFlag (indexOverflowFlag s.i (s.getV x))
  | .ldFVx x => s.setI (glyphAddress (s.getV x))
  | .ldBVx x => s.setMem (s.mem.writeBytes s.i.toNat (decimalDigits (s.getV x)))
  | .ldMemVx x => (s.setMem (s.mem.writeBytes s.i.toNat (s.regBlock x))).bumpIndex x
  | .ldVxMem x => (s.loadRegBlock (s.mem.readBytes s.i.toNat (x.val + 1))).bumpIndex x

/-- When an instruction raises which outcome. -/
def raises (s : State) (o : StepOutcome) : Instr → Prop
  | .sysNnn nnn => o = .unsupportedInstruction (zext16 nnn)
  | .ret => s.sp.val = 0 ∧ o = .fatal .stackUnderflow
  | .jpNnn nnn => nnn.toNat % 2 = 1 ∧ o = .fatal (.addressFault .misalignedTarget (zext16 nnn))
  | .callNnn nnn => (s.sp.val = 16 ∧ o = .fatal .stackOverflow) ∨
      (s.sp.val < 16 ∧ nnn.toNat % 2 = 1 ∧ o = .fatal (.addressFault .misalignedTarget (zext16 nnn)))
  | .jpV0Nnn nnn => (s.offsetTarget nnn).toNat % 2 = 1 ∧
      o = .fatal (.addressFault .misalignedTarget (s.offsetTarget nnn))
  | .drwVxVyN _ _ n => accessInRange s.i.toNat n.val = false ∧ o = .fatal (.addressFault .readRange s.i)
  | .skpVx x => 15 < (s.getV x).toNat ∧ o = .fatal (.addressFault .keyIndex (zext16 (s.getV x)))
  | .sknpVx x => 15 < (s.getV x).toNat ∧ o = .fatal (.addressFault .keyIndex (zext16 (s.getV x)))
  | .ldBVx _ => accessInRange s.i.toNat 3 = false ∧ o = .fatal (.addressFault .writeRange s.i)
  | .ldMemVx x => accessInRange s.i.toNat (x.val + 1) = false ∧ o = .fatal (.addressFault .writeRange s.i)
  | .ldVxMem x => accessInRange s.i.toNat (x.val + 1) = false ∧ o = .fatal (.addressFault .readRange s.i)
  | .cls => False
  | .seVxNn _ _ => False
  | .sneVxNn _ _ => False
  | .seVxVy _ _ => False
  | .ldVxNn _ _ => False
  | .addVxNn _ _ => False
  | .ldVxVy _ _ => False
  | .orVxVy _ _ => False
  | .andVxVy _ _ => False
  | .xorVxVy _ _ => False
  | .addVxVy _ _ => False
  | .subVxVy _ _ => False
  | .shrVxVy _ _ => False
  | .subnVxVy _ _ => False
  | .shlVxVy _ _ => False
  | .sneVxVy _ _ => False
  | .ldINnn _ => False
  | .rndVxNn _ _ => False
  | .ldVxDt _ => False
  | .ldVxK _ => False
  | .ldDtVx _ => False
  | .ldStVx _ => False
  | .addIVx _ => False
  | .ldFVx _ => False

theorem length_regBlock (s : State) (x : Reg) : (s.regBlock x).length = x.val + 1 := by simp [State.regBlock]

/-- An outcome that is raised is not Ok. -/
theorem raises_ne_ok {s : State} {i : Instr} : ¬ raises s .ok i := by cases i <;> simp [raises]

/-- All that an instruction can do: its effect with the outcome Ok, or one of its outcomes and nothing else (R134, R137). -/
theorem exec_cases (i : Instr) (s : State) :
    ((∀ o, ¬ raises s o i) ∧ exec i s = .next ((effect s i).setOutcome .ok)) ∨
      ∃ o, raises s o i ∧ exec i s = .next (s.setOutcome o) := by
  cases i with
  | sysNnn nnn => exact .inr ⟨_, rfl, rfl⟩
  | ret =>
    rcases s.pop_cases with ⟨h, e⟩ | ⟨h, e⟩
    · refine .inl ⟨fun o ho => by simp only [raises] at ho; omega, ?_⟩
      simp only [exec, execRet, e, effect, dif_pos h]; rfl
    · exact .inr ⟨_, ⟨h, rfl⟩, by simp only [exec, execRet, e]; rfl⟩
  | jpNnn nnn =>
    rcases s.jumpTo_cases (zext16 nnn) with ⟨h, e⟩ | ⟨h, e⟩
    · exact .inl ⟨fun o ho => by simp only [raises] at ho; simp at h; omega, e⟩
    · exact .inr ⟨_, ⟨by simpa using h, rfl⟩, e⟩
  | callNnn nnn =>
    rcases s.push_cases s.pc with ⟨h, e⟩ | ⟨h, e⟩
    · by_cases hn : nnn.toNat % 2 = 1
      · refine .inr ⟨_, .inr ⟨h, hn, rfl⟩, ?_⟩
        have ht : targetFault (zext16 nnn) = some (.addressFault .misalignedTarget (zext16 nnn)) := by
          simp [targetFault, hn]
        simp only [exec, execCallNnn, e, ht]; rfl
      · refine .inl ⟨fun o ho => by simp only [raises] at ho; omega, ?_⟩
        have ht : targetFault (zext16 nnn) = none := by simp [targetFault, hn]
        simp only [exec, execCallNnn, e, ht, effect, dif_pos h]; rfl
    · exact .inr ⟨_, .inl ⟨h, rfl⟩, by simp only [exec, execCallNnn, e]; rfl⟩
  | jpV0Nnn nnn =>
    rcases s.jumpTo_cases (s.offsetTarget nnn) with ⟨h, e⟩ | ⟨h, e⟩
    · exact .inl ⟨fun o ho => by simp only [raises] at ho; omega, e⟩
    · exact .inr ⟨_, ⟨h, rfl⟩, e⟩
  | drwVxVyN x y n =>
    rcases s.memRead_cases s.i n.val with ⟨h, e⟩ | ⟨h, e⟩
    · refine .inl ⟨fun o ho => by simp [raises, h] at ho, ?_⟩
      simp only [exec, execDrwVxVyN, e]; rfl
    · exact .inr ⟨_, ⟨h, rfl⟩, by simp only [exec, execDrwVxVyN, e]; rfl⟩
  | skpVx x =>
    rcases s.keyDown_cases (s.getV x) with ⟨h, e⟩ | ⟨h, e⟩
    · refine .inl ⟨fun o ho => by simp only [raises] at ho; omega, ?_⟩
      simp only [exec, execSkpVx, e, effect, dif_pos h]; rfl
    · exact .inr ⟨_, ⟨h, rfl⟩, by simp only [exec, execSkpVx, e]; rfl⟩
  | sknpVx x =>
    rcases s.keyDown_cases (s.getV x) with ⟨h, e⟩ | ⟨h, e⟩
    · refine .inl ⟨fun o ho => by simp only [raises] at ho; omega, ?_⟩
      simp only [exec, execSknpVx, e, effect, dif_pos h]; rfl
    · exact .inr ⟨_, ⟨h, rfl⟩, by simp only [exec, execSknpVx, e]; rfl⟩
  | ldBVx x =>
    rcases s.memWrite_cases s.i (decimalDigits (s.getV x)) with ⟨h, e⟩ | ⟨h, e⟩
    · refine .inl ⟨fun o ho => ?_, by simp only [exec, execLdBVx, e]; rfl⟩
      rw [show (decimalDigits (s.getV x)).length = 3 from rfl] at h
      simp [raises, h] at ho
    · exact .inr ⟨_, ⟨h, rfl⟩, by simp only [exec, execLdBVx, e]; rfl⟩
  | ldMemVx x =>
    rcases s.memWrite_cases s.i (s.regBlock x) with ⟨h, e⟩ | ⟨h, e⟩
    all_goals rw [length_regBlock] at h
    · refine .inl ⟨fun o ho => by simp [raises, h] at ho, by simp only [exec, execLdMemVx, e]; rfl⟩
    · exact .inr ⟨_, ⟨h, rfl⟩, by simp only [exec, execLdMemVx, e]; rfl⟩
  | ldVxMem x =>
    rcases s.memRead_cases s.i (x.val + 1) with ⟨h, e⟩ | ⟨h, e⟩
    · refine .inl ⟨fun o ho => by simp [raises, h] at ho, by simp only [exec, execLdVxMem, e]; rfl⟩
    · exact .inr ⟨_, ⟨h, rfl⟩, by simp only [exec, execLdVxMem, e]; rfl⟩
  | ldVxK x =>
    refine .inl ⟨fun o ho => ho, ?_⟩
    simp only [exec, execLdVxK, effect]
    cases s.edges <;> rfl
  | cls => exact .inl ⟨fun o ho => ho, rfl⟩
  | seVxNn _ _ => exact .inl ⟨fun o ho => ho, rfl⟩
  | sneVxNn _ _ => exact .inl ⟨fun o ho => ho, rfl⟩
  | seVxVy _ _ => exact .inl ⟨fun o ho => ho, rfl⟩
  | ldVxNn _ _ => exact .inl ⟨fun o ho => ho, rfl⟩
  | addVxNn _ _ => exact .inl ⟨fun o ho => ho, rfl⟩
  | ldVxVy _ _ => exact .inl ⟨fun o ho => ho, rfl⟩
  | orVxVy _ _ => exact .inl ⟨fun o ho => ho, rfl⟩
  | andVxVy _ _ => exact .inl ⟨fun o ho => ho, rfl⟩
  | xorVxVy _ _ => exact .inl ⟨fun o ho => ho, rfl⟩
  | addVxVy _ _ => exact .inl ⟨fun o ho => ho, rfl⟩
  | subVxVy _ _ => exact .inl ⟨fun o ho => ho, rfl⟩
  | shrVxVy _ _ => exact .inl ⟨fun o ho => ho, rfl⟩
  | subnVxVy _ _ => exact .inl ⟨fun o ho => ho, rfl⟩
  | shlVxVy _ _ => exact .inl ⟨fun o ho => ho, rfl⟩
  | sneVxVy _ _ => exact .inl ⟨fun o ho => ho, rfl⟩
  | ldINnn _ => exact .inl ⟨fun o ho => ho, rfl⟩
  | rndVxNn _ _ => exact .inl ⟨fun o ho => ho, rfl⟩
  | ldVxDt _ => exact .inl ⟨fun o ho => ho, rfl⟩
  | ldDtVx _ => exact .inl ⟨fun o ho => ho, rfl⟩
  | ldStVx _ => exact .inl ⟨fun o ho => ho, rfl⟩
  | addIVx _ => exact .inl ⟨fun o ho => ho, rfl⟩
  | ldFVx _ => exact .inl ⟨fun o ho => ho, rfl⟩

/-- The inversion of `exec` at a next state. -/
theorem exec_next {i : Instr} {s t : State} (h : exec i s = .next t) :
    ((∀ o, ¬ raises s o i) ∧ t = (effect s i).setOutcome .ok) ∨ ∃ o, raises s o i ∧ t = s.setOutcome o := by
  rcases exec_cases i s with ⟨hr, e⟩ | ⟨o, hr, e⟩
  · rw [h] at e; exact .inl ⟨hr, Host.Outcome.next.inj e⟩
  · rw [h] at e; exact .inr ⟨o, hr, Host.Outcome.next.inj e⟩

/-- No effect writes the keypad snapshots, the latch or the parameters. -/
theorem effect_unwritten (s : State) (i : Instr) :
    (effect s i).keys = s.keys ∧ (effect s i).prevKeys = s.prevKeys ∧ (effect s i).latch = s.latch ∧
      (effect s i).params = s.params := by
  cases i <;> (try simp only [effect, State.setLogicResult, State.setResultAndFlag, State.logicFlag,
    State.setIndexFlag, State.bumpIndex, State.pickKey, State.loadRegBlock])
  all_goals (repeat' split) <;> simp

/-- An effect that is no transfer and no key-wait leaves PC or adds a skip's 2 to it. -/
theorem effect_pc (s : State) (i : Instr) (hcall : ∀ nnn, i ≠ .callNnn nnn) (hret : i ≠ .ret)
    (hjp : ∀ nnn, i ≠ .jpNnn nnn) (hjpV0 : ∀ nnn, i ≠ .jpV0Nnn nnn) (hkey : ∀ x, i ≠ .ldVxK x) :
    (effect s i).pc = s.pc ∨ (effect s i).pc = s.pc + 2 := by
  cases i <;> (try simp only [effect, State.skipIf, State.setLogicResult, State.setResultAndFlag, State.logicFlag,
    State.setIndexFlag, State.bumpIndex, State.loadRegBlock])
  all_goals (repeat' split)
  all_goals first | (simp; done) | (exfalso; simp at hcall hret hjp hjpV0 hkey)

/-- Only the effects of CALL and RET write the stack. -/
theorem effect_stack (s : State) (i : Instr) (hcall : ∀ nnn, i ≠ .callNnn nnn) (hret : i ≠ .ret) :
    (effect s i).stack = s.stack ∧ (effect s i).sp = s.sp := by
  cases i <;> (try simp only [effect, State.setLogicResult, State.setResultAndFlag, State.logicFlag,
    State.setIndexFlag, State.bumpIndex, State.pickKey, State.loadRegBlock])
  all_goals (repeat' split)
  all_goals simp_all

/-- Only the effects of LD B, Vx and LD [I], Vx write memory. -/
theorem effect_mem (s : State) (i : Instr) (hb : ∀ x, i ≠ .ldBVx x) (hd : ∀ x, i ≠ .ldMemVx x) :
    (effect s i).mem = s.mem := by
  cases i <;> (try simp only [effect, State.setLogicResult, State.setResultAndFlag, State.logicFlag,
    State.setIndexFlag, State.bumpIndex, State.pickKey, State.loadRegBlock])
  all_goals (repeat' split)
  all_goals simp_all

end Sys2Proof.Machine
end

