-- ==== Sys2Proof/Laws/Step.lean ====
section
/-! SUPPORT. All that one step can do, and what the step after `withFetchWord` runs. -/

namespace Sys2Proof.Machine

/-- All that a step can do (R138): the latched outcome, a fetch fault, an unsupported word, or the decoded instruction. -/
theorem step_cases (s : State) :
    (∃ f, s.latch = some f ∧ step s = .fault (.latched f)) ∨
      (s.latch = none ∧ ∃ f, s.fetchFault = some f ∧ step s = .next (s.setOutcome (.fatal f)).finish) ∨
      (s.latch = none ∧ s.fetchFault = none ∧ ∃ op, decodeWord s.fetchWord = .unsupported op ∧
        step s = .next (s.advancePc.setOutcome (.unsupportedInstruction op)).finish) ∨
      (s.latch = none ∧ s.fetchFault = none ∧ ∃ i, decodeWord s.fetchWord = .instr i ∧
        step s = match exec i s.advancePc with
          | .next t => .next t.finish
          | .fault f => .fault f
          | .refused r => .refused r) := by
  unfold step
  cases hl : s.latch with
  | some f => exact .inl ⟨f, rfl, rfl⟩
  | none =>
    cases hf : s.fetchFault with
    | some f => exact .inr (.inl ⟨rfl, f, rfl, rfl⟩)
    | none =>
      cases hd : decodeWord s.fetchWord with
      | unsupported op => exact .inr (.inr (.inl ⟨rfl, rfl, op, rfl, rfl⟩))
      | instr i => exact .inr (.inr (.inr ⟨rfl, rfl, i, rfl, rfl⟩))

/-- A step from a latched state (R130). -/
theorem step_latched {s : State} {f : FatalOutcome} (h : s.latch = some f) : step s = .fault (.latched f) := by
  simp only [step, h]

/-- A step whose fetch faults (R131). -/
theorem step_fetchFault {s : State} {f : FatalOutcome} (hl : s.latch = none) (h : s.fetchFault = some f) :
    step s = .next (s.setOutcome (.fatal f)).finish := by
  simp only [step, hl, h]

/-- A step that fetches an unsupported word (R135). -/
theorem step_unsupported {s : State} {op : Word} (hl : s.latch = none) (hf : s.fetchFault = none)
    (hd : decodeWord s.fetchWord = .unsupported op) :
    step s = .next (s.advancePc.setOutcome (.unsupportedInstruction op)).finish := by
  simp only [step, hl, hf, hd]

/-- A step that runs an instruction (R134). -/
theorem step_instr {s t : State} {i : Instr} (hl : s.latch = none) (hf : s.fetchFault = none)
    (hd : decodeWord s.fetchWord = .instr i) (hx : exec i s.advancePc = .next t) : step s = .next t.finish := by
  simp only [step, hl, hf, hd, hx]

/-- The inversion of `step` at a next state. -/
theorem step_next {s t : State} (h : step s = .next t) :
    s.latch = none ∧
      ((∃ f, s.fetchFault = some f ∧ t = (s.setOutcome (.fatal f)).finish) ∨
        (s.fetchFault = none ∧ ∃ op, decodeWord s.fetchWord = .unsupported op ∧
          t = (s.advancePc.setOutcome (.unsupportedInstruction op)).finish) ∨
        (s.fetchFault = none ∧ ∃ i u, decodeWord s.fetchWord = .instr i ∧ exec i s.advancePc = .next u ∧
          t = u.finish)) := by
  rcases step_cases s with ⟨f, hf, e⟩ | ⟨hl, f, hf, e⟩ | ⟨hl, hf, op, hd, e⟩ | ⟨hl, hf, i, hd, e⟩
  · rw [e] at h; cases h
  · rw [e] at h; exact ⟨hl, .inl ⟨f, hf, (Host.Outcome.next.inj h).symm⟩⟩
  · rw [e] at h; exact ⟨hl, .inr (.inl ⟨hf, op, hd, (Host.Outcome.next.inj h).symm⟩)⟩
  · rw [e] at h
    cases hx : exec i s.advancePc with
    | next u => rw [hx] at h; exact ⟨hl, .inr (.inr ⟨hf, i, u, hd, hx, (Host.Outcome.next.inj h).symm⟩)⟩
    | fault f => rw [hx] at h; cases h
    | refused r => rw [hx] at h; cases h

namespace State

/-- `withFetchWord` makes the state fetchable. -/
theorem withFetchWord_ready (s : State) (nbits w : Nat) :
    (s.withFetchWord nbits w).latch = none ∧ (s.withFetchWord nbits w).fetchFault = none := by
  refine ⟨rfl, ?_⟩
  have key : ∀ t u : State, u.pc = t.pc → u.fetchFault = t.fetchFault := by
    intro t u h; simp only [fetchFault, h]
  refine (key ((if s.fetchFault.isSome then s.setPc 512#16 else s).setLatch none) _ rfl).trans ?_
  cases h : s.fetchFault with
  | none => rw [key s _ (by simp)]; exact h
  | some f =>
    rw [key (s.setPc 512#16) _ (by simp)]
    simp [fetchFault]

/-- What the next step fetches after `withFetchWord` is the word. -/
theorem fetchWord_withFetchWord (s : State) (hm : s.mem.wf = true) (w : Nat) :
    (s.withFetchWord 16 w).fetchWord = BitVec.ofNat 16 w := by
  have hw : BitVec.ofNat 16 (w % 2 ^ min 16 16) = BitVec.ofNat 16 w := by
    apply BitVec.eq_of_toNat_eq
    have h16 : 2 ^ min 16 16 = 65536 := rfl
    simp only [BitVec.toNat_ofNat, h16]
    omega
  have hready := (fetchFault_cases (s.withFetchWord 16 w)).resolve_left (by
    rintro ⟨-, h⟩; rw [(s.withFetchWord_ready 16 w).2] at h; cases h)
  have hready := hready.resolve_left (by
    rintro ⟨-, -, h⟩; rw [(s.withFetchWord_ready 16 w).2] at h; cases h)
  have hpc := hready.1
  unfold withFetchWord at hpc ⊢
  simp only [hw] at hpc ⊢
  generalize hr : (if s.fetchFault.isSome then s.setPc 512#16 else s).setLatch none = r at hpc ⊢
  have hmem : r.mem.wf = true := by rw [← hr]; cases s.fetchFault <;> exact hm
  simp only [setMem_pc] at hpc
  simp only [fetchWord, setMem_pc, setMem_mem]
  rw [Memory.read_write (Memory.wf_write hmem (by unfold memSize; omega) _), if_neg (by omega),
    Memory.read_write hmem, if_pos rfl,
    Memory.read_write (Memory.wf_write hmem (by unfold memSize; omega) _), if_pos rfl, wordOfBytes_bytes]

end State
end Sys2Proof.Machine
end

