-- ==== Sys2Proof/Laws/Host.lean ====
section
/-! SUPPORT. All that the host's transactions can do, so that no later proof unfolds the construction of memory. -/

namespace Sys2Proof.Machine

/-- `construct_memory()` starts a new run from any system (R331). -/
theorem transact_constructMemory (b : Build) (y : System) (any : ArbitraryFill) :
    transact b y (.constructMemory any) =
      .next (.memory (constructMemory b any) y.drawn, .none) := rfl

/-- A transaction over a memory, other than construction (R320). -/
theorem transact_memory (b : Build) (m : Memory) (drawn : Nat) {o : HostOp} (h : ∀ any, o ≠ .constructMemory any) :
    transact b (.memory m drawn) o = bootOp b m drawn o := by
  cases o <;> first | rfl | exact absurd rfl (h _)

/-- A transaction on an engine, other than construction (R320). -/
theorem transact_engine (b : Build) (s : State) {o : HostOp} (h : ∀ any, o ≠ .constructMemory any) :
    transact b (.engine s) o = runtimeOp s o := by
  cases o <;> first | rfl | exact absurd rfl (h _)

/-- Nothing but construction runs before memory exists (R330). -/
theorem transact_empty (b : Build) {o : HostOp} (h : ∀ any, o ≠ .constructMemory any) :
    transact b .empty o = .refused .hostOperationOutOfOrder := by
  cases o <;> first | rfl | exact absurd rfl (h _)

theorem transactAll_cons (b : Build) (y z : System) (o : HostOp) (r : Reply) (os : List HostOp)
    (h : transact b y o = .next (z, r)) : transactAll b y (o :: os) = transactAll b z os := by
  simp only [transactAll, h]

/-- A step transaction returns the outcome of the step, or the latched one with the state as it was (R130, R300). -/
theorem stepReply_cases (s : State) :
    (∃ t, step s = .next t ∧ stepReply s = .next (.engine t, .outcome t.outcome)) ∨
      ∃ f, s.latch = some f ∧ stepReply s = .next (.engine s, .outcome (.fatal f)) := by
  unfold stepReply
  rcases step_cases s with ⟨f, hf, e⟩ | ⟨-, f, -, e⟩ | ⟨-, -, op, -, e⟩ | ⟨-, -, i, -, e⟩
  · rw [e]; exact .inr ⟨f, hf, rfl⟩
  · rw [e]; exact .inl ⟨_, rfl, rfl⟩
  · rw [e]; exact .inl ⟨_, rfl, rfl⟩
  · rcases exec_cases i s.advancePc with ⟨-, x⟩ | ⟨o, -, x⟩ <;> (rw [e, x]; exact .inl ⟨_, rfl, rfl⟩)

end Sys2Proof.Machine
end

