-- ==== Sys2Proof/Laws/PerInstr.lean ====
section
/-! SUPPORT. The round trip of every instruction: the word the encoder gives a well-formed instruction decodes to it. -/

namespace Sys2Proof.Laws.RoundTrip

/-- The word of a well-formed instruction decodes to the instruction (R101, R104). -/
def Statement (i : Instr) : Prop := i.wellFormed = true → decodeWord (encode i) = .instr i

theorem sysNnn (nnn : Addr12) : Statement (.sysNnn nnn) := fun hwf => by
  have hne : nnn ≠ 0x0E0#12 ∧ nnn ≠ 0x0EE#12 := by simpa [Instr.wellFormed] using hwf
  have h1 : encodeNNN 0x0 nnn ≠ 0x00E0#16 := fun e => hne.1 (by
    have := congrArg fieldNNN e; rw [fieldNNN_encodeNNN] at this; rw [this]; decide)
  have h2 : encodeNNN 0x0 nnn ≠ 0x00EE#16 := fun e => hne.2 (by
    have := congrArg fieldNNN e; rw [fieldNNN_encodeNNN] at this; rw [this]; decide)
  simp only [encode, decodeWord, fieldT_encodeNNN (t := 0x0) (by decide), decodeTag0, if_neg h1, if_neg h2,
    fieldNNN_encodeNNN]

theorem cls : Statement .cls := fun _ => by decide

theorem ret : Statement .ret := fun _ => by decide

theorem jpNnn (nnn : Addr12) : Statement (.jpNnn nnn) := fun _ => by
  simp only [encode, decodeWord, fieldT_encodeNNN (t := 0x1) (by decide), fieldNNN_encodeNNN]

theorem callNnn (nnn : Addr12) : Statement (.callNnn nnn) := fun _ => by
  simp only [encode, decodeWord, fieldT_encodeNNN (t := 0x2) (by decide), fieldNNN_encodeNNN]

theorem seVxNn (x : Reg) (nn : Byte) : Statement (.seVxNn x nn) := fun _ => by
  simp only [encode, decodeWord, fieldT_encodeXNN (t := 0x3) (by decide), fieldX_encodeXNN, fieldNN_encodeXNN]

theorem sneVxNn (x : Reg) (nn : Byte) : Statement (.sneVxNn x nn) := fun _ => by
  simp only [encode, decodeWord, fieldT_encodeXNN (t := 0x4) (by decide), fieldX_encodeXNN, fieldNN_encodeXNN]

theorem seVxVy (x y : Reg) : Statement (.seVxVy x y) := fun _ => by
  simp only [encode, decodeWord, decodeTag5, fieldT_encodeXYN (t := 0x5) (n := 0x0) (by decide) (by decide),
    fieldN_encodeXYN (n := 0x0) 0x5 (by decide), fieldX_encodeXYN (n := 0x0) 0x5 (by decide), fieldY_encodeXYN (n := 0x0) 0x5 (by decide)]

theorem ldVxNn (x : Reg) (nn : Byte) : Statement (.ldVxNn x nn) := fun _ => by
  simp only [encode, decodeWord, fieldT_encodeXNN (t := 0x6) (by decide), fieldX_encodeXNN, fieldNN_encodeXNN]

theorem addVxNn (x : Reg) (nn : Byte) : Statement (.addVxNn x nn) := fun _ => by
  simp only [encode, decodeWord, fieldT_encodeXNN (t := 0x7) (by decide), fieldX_encodeXNN, fieldNN_encodeXNN]

theorem ldVxVy (x y : Reg) : Statement (.ldVxVy x y) := fun _ => by
  simp only [encode, decodeWord, decodeTag8, fieldT_encodeXYN (t := 0x8) (n := 0x0) (by decide) (by decide),
    fieldN_encodeXYN (n := 0x0) 0x8 (by decide), fieldX_encodeXYN (n := 0x0) 0x8 (by decide), fieldY_encodeXYN (n := 0x0) 0x8 (by decide)]

theorem orVxVy (x y : Reg) : Statement (.orVxVy x y) := fun _ => by
  simp only [encode, decodeWord, decodeTag8, fieldT_encodeXYN (t := 0x8) (n := 0x1) (by decide) (by decide),
    fieldN_encodeXYN (n := 0x1) 0x8 (by decide), fieldX_encodeXYN (n := 0x1) 0x8 (by decide), fieldY_encodeXYN (n := 0x1) 0x8 (by decide)]

theorem andVxVy (x y : Reg) : Statement (.andVxVy x y) := fun _ => by
  simp only [encode, decodeWord, decodeTag8, fieldT_encodeXYN (t := 0x8) (n := 0x2) (by decide) (by decide),
    fieldN_encodeXYN (n := 0x2) 0x8 (by decide), fieldX_encodeXYN (n := 0x2) 0x8 (by decide), fieldY_encodeXYN (n := 0x2) 0x8 (by decide)]

theorem xorVxVy (x y : Reg) : Statement (.xorVxVy x y) := fun _ => by
  simp only [encode, decodeWord, decodeTag8, fieldT_encodeXYN (t := 0x8) (n := 0x3) (by decide) (by decide),
    fieldN_encodeXYN (n := 0x3) 0x8 (by decide), fieldX_encodeXYN (n := 0x3) 0x8 (by decide), fieldY_encodeXYN (n := 0x3) 0x8 (by decide)]

theorem addVxVy (x y : Reg) : Statement (.addVxVy x y) := fun _ => by
  simp only [encode, decodeWord, decodeTag8, fieldT_encodeXYN (t := 0x8) (n := 0x4) (by decide) (by decide),
    fieldN_encodeXYN (n := 0x4) 0x8 (by decide), fieldX_encodeXYN (n := 0x4) 0x8 (by decide), fieldY_encodeXYN (n := 0x4) 0x8 (by decide)]

theorem subVxVy (x y : Reg) : Statement (.subVxVy x y) := fun _ => by
  simp only [encode, decodeWord, decodeTag8, fieldT_encodeXYN (t := 0x8) (n := 0x5) (by decide) (by decide),
    fieldN_encodeXYN (n := 0x5) 0x8 (by decide), fieldX_encodeXYN (n := 0x5) 0x8 (by decide), fieldY_encodeXYN (n := 0x5) 0x8 (by decide)]

theorem shrVxVy (x y : Reg) : Statement (.shrVxVy x y) := fun _ => by
  simp only [encode, decodeWord, decodeTag8, fieldT_encodeXYN (t := 0x8) (n := 0x6) (by decide) (by decide),
    fieldN_encodeXYN (n := 0x6) 0x8 (by decide), fieldX_encodeXYN (n := 0x6) 0x8 (by decide), fieldY_encodeXYN (n := 0x6) 0x8 (by decide)]

theorem subnVxVy (x y : Reg) : Statement (.subnVxVy x y) := fun _ => by
  simp only [encode, decodeWord, decodeTag8, fieldT_encodeXYN (t := 0x8) (n := 0x7) (by decide) (by decide),
    fieldN_encodeXYN (n := 0x7) 0x8 (by decide), fieldX_encodeXYN (n := 0x7) 0x8 (by decide), fieldY_encodeXYN (n := 0x7) 0x8 (by decide)]

theorem shlVxVy (x y : Reg) : Statement (.shlVxVy x y) := fun _ => by
  simp only [encode, decodeWord, decodeTag8, fieldT_encodeXYN (t := 0x8) (n := 0xE) (by decide) (by decide),
    fieldN_encodeXYN (n := 0xE) 0x8 (by decide), fieldX_encodeXYN (n := 0xE) 0x8 (by decide), fieldY_encodeXYN (n := 0xE) 0x8 (by decide)]

theorem sneVxVy (x y : Reg) : Statement (.sneVxVy x y) := fun _ => by
  simp only [encode, decodeWord, decodeTag9, fieldT_encodeXYN (t := 0x9) (n := 0x0) (by decide) (by decide),
    fieldN_encodeXYN (n := 0x0) 0x9 (by decide), fieldX_encodeXYN (n := 0x0) 0x9 (by decide), fieldY_encodeXYN (n := 0x0) 0x9 (by decide)]

theorem ldINnn (nnn : Addr12) : Statement (.ldINnn nnn) := fun _ => by
  simp only [encode, decodeWord, fieldT_encodeNNN (t := 0xA) (by decide), fieldNNN_encodeNNN]

theorem jpV0Nnn (nnn : Addr12) : Statement (.jpV0Nnn nnn) := fun _ => by
  simp only [encode, decodeWord, fieldT_encodeNNN (t := 0xB) (by decide), fieldNNN_encodeNNN]

theorem rndVxNn (x : Reg) (nn : Byte) : Statement (.rndVxNn x nn) := fun _ => by
  simp only [encode, decodeWord, fieldT_encodeXNN (t := 0xC) (by decide), fieldX_encodeXNN, fieldNN_encodeXNN]

theorem drwVxVyN (x y : Reg) (n : Height) : Statement (.drwVxVyN x y n) := fun _ => by
  simp only [encode, decodeWord, fieldT_encodeXYN (t := 0xD) (by decide) n.isLt, fieldX_encodeXYN 0xD n.isLt,
    fieldY_encodeXYN 0xD n.isLt, Fin.ext (fieldN_encodeXYN 0xD n.isLt x y)]

theorem skpVx (x : Reg) : Statement (.skpVx x) := fun _ => by
  simp only [encode, decodeWord, decodeTagE, fieldT_encodeX (t := 0xE) (sub := 0x9E) (by decide) (by decide),
    fieldNN_encodeX (sub := 0x9E) 0xE (by decide), fieldX_encodeX (sub := 0x9E) 0xE (by decide)]

theorem sknpVx (x : Reg) : Statement (.sknpVx x) := fun _ => by
  simp only [encode, decodeWord, decodeTagE, fieldT_encodeX (t := 0xE) (sub := 0xA1) (by decide) (by decide),
    fieldNN_encodeX (sub := 0xA1) 0xE (by decide), fieldX_encodeX (sub := 0xA1) 0xE (by decide)]

theorem ldVxDt (x : Reg) : Statement (.ldVxDt x) := fun _ => by
  simp only [encode, decodeWord, decodeTagF, fieldT_encodeX (t := 0xF) (sub := 0x07) (by decide) (by decide),
    fieldNN_encodeX (sub := 0x07) 0xF (by decide), fieldX_encodeX (sub := 0x07) 0xF (by decide)]

theorem ldVxK (x : Reg) : Statement (.ldVxK x) := fun _ => by
  simp only [encode, decodeWord, decodeTagF, fieldT_encodeX (t := 0xF) (sub := 0x0A) (by decide) (by decide),
    fieldNN_encodeX (sub := 0x0A) 0xF (by decide), fieldX_encodeX (sub := 0x0A) 0xF (by decide)]

theorem ldDtVx (x : Reg) : Statement (.ldDtVx x) := fun _ => by
  simp only [encode, decodeWord, decodeTagF, fieldT_encodeX (t := 0xF) (sub := 0x15) (by decide) (by decide),
    fieldNN_encodeX (sub := 0x15) 0xF (by decide), fieldX_encodeX (sub := 0x15) 0xF (by decide)]

theorem ldStVx (x : Reg) : Statement (.ldStVx x) := fun _ => by
  simp only [encode, decodeWord, decodeTagF, fieldT_encodeX (t := 0xF) (sub := 0x18) (by decide) (by decide),
    fieldNN_encodeX (sub := 0x18) 0xF (by decide), fieldX_encodeX (sub := 0x18) 0xF (by decide)]

theorem addIVx (x : Reg) : Statement (.addIVx x) := fun _ => by
  simp only [encode, decodeWord, decodeTagF, fieldT_encodeX (t := 0xF) (sub := 0x1E) (by decide) (by decide),
    fieldNN_encodeX (sub := 0x1E) 0xF (by decide), fieldX_encodeX (sub := 0x1E) 0xF (by decide)]

theorem ldFVx (x : Reg) : Statement (.ldFVx x) := fun _ => by
  simp only [encode, decodeWord, decodeTagF, fieldT_encodeX (t := 0xF) (sub := 0x29) (by decide) (by decide),
    fieldNN_encodeX (sub := 0x29) 0xF (by decide), fieldX_encodeX (sub := 0x29) 0xF (by decide)]

theorem ldBVx (x : Reg) : Statement (.ldBVx x) := fun _ => by
  simp only [encode, decodeWord, decodeTagF, fieldT_encodeX (t := 0xF) (sub := 0x33) (by decide) (by decide),
    fieldNN_encodeX (sub := 0x33) 0xF (by decide), fieldX_encodeX (sub := 0x33) 0xF (by decide)]

theorem ldMemVx (x : Reg) : Statement (.ldMemVx x) := fun _ => by
  simp only [encode, decodeWord, decodeTagF, fieldT_encodeX (t := 0xF) (sub := 0x55) (by decide) (by decide),
    fieldNN_encodeX (sub := 0x55) 0xF (by decide), fieldX_encodeX (sub := 0x55) 0xF (by decide)]

theorem ldVxMem (x : Reg) : Statement (.ldVxMem x) := fun _ => by
  simp only [encode, decodeWord, decodeTagF, fieldT_encodeX (t := 0xF) (sub := 0x65) (by decide) (by decide),
    fieldNN_encodeX (sub := 0x65) 0xF (by decide), fieldX_encodeX (sub := 0x65) 0xF (by decide)]

end Sys2Proof.Laws.RoundTrip
end

