-- ==== Sys2Proof/Laws/Word.lean ====
section
/-! SUPPORT. Zero extension and flag bytes as numbers. -/

namespace Sys2Proof

@[simp] theorem toNat_zext16_addr (nnn : Addr12) : (zext16 nnn).toNat = nnn.toNat := by
  simp only [BitVec.toNat_setWidth]
  omega

@[simp] theorem toNat_zext16_byte (b : Byte) : (zext16 b).toNat = b.toNat := by
  simp only [BitVec.toNat_setWidth]
  omega

/-- A flag as a number (R51). -/
theorem Machine.toNat_flagByte (b : Bool) : (Machine.flagByte b).toNat = if b then 1 else 0 := by cases b <;> rfl

end Sys2Proof
end

