-- ==== Sys2Proof/Tests/Slice0.lean ====
section
/-! SUPPORT. Tests, with results taken from spec/ (the numbers L<n> are those of 95_test_vectors.md), and for each statement with
hypotheses a witness that meets them, at the boundary values of its clauses. -/

namespace Sys2Proof.Tests
open Sys2Proof.Machine

/-! ## Helpers -/

/-- What `f` reads from the state after one step that runs the word `w` at the PC of `s`. -/
def after {α : Type} (s : State) (w : Nat) (f : State → α) : Option α :=
  match step (s.withFetchWord 16 w) with
  | .next t => some (f t)
  | .fault _ => none
  | .refused _ => none

/-- What `f` reads from the state after one step of `s`. -/
def stepped {α : Type} (s : State) (f : State → α) : Option α :=
  match step s with
  | .next t => some (f t)
  | .fault _ => none
  | .refused _ => none

/-- The state after construction, at PC `a`. -/
def at' (a : Nat) : State := { State.reset with pc := BitVec.ofNat 16 a }

/-- Registers set, one after another. -/
def regs (s : State) : List (Reg × Byte) → State
  | [] => s
  | (x, b) :: rest => regs (s.setV x b) rest

/-- Bytes stored from an address on. -/
def bytes (s : State) (a : Nat) (bs : List Byte) : State := s.setMem (s.mem.writeBytes a bs)

/-- A keypad snapshot with the keys of a list down. -/
def down (ks : List Nat) : Vector Bool 16 := Vector.ofFn (fun k => ks.contains k.val)

/-- A stack with `n` entries in use, all of them 0x0202. -/
def depth (s : State) (n : Fin 17) : State := s.setStack (Vector.replicate 16 0x0202) n

/-- The pixels of a window of the screen, a row a list, from column `x` and row `y` on, wrapping. -/
def window (s : State) (x y w h : Nat) : List (List Nat) :=
  (List.range h).map (fun r => (List.range w).map (fun c => (s.fb.pixel (x + c) (y + r)).toNat))

/-- Other values of the parameters than the defaults. -/
def others : Params where
  shiftSrc := .vy
  logicVF := .reset
  ldstI := .increment
  fx1eVF := .unchanged
  keywaitPick := .any

/-- The outcome that a fault of a data access, a transfer or a key number is. -/
def faultOf (c : FaultCause) (v : Nat) : StepOutcome := .fatal (.addressFault c (BitVec.ofNat 16 v))

/-! ## Well-formedness: what the check refuses -/

/-- R103, R161: the words of CLS and RET are no SYS, and their neighbours are. -/
theorem test_wellFormed : (Instr.sysNnn 0x0E0#12).wellFormed = false ∧ (Instr.sysNnn 0x0EE#12).wellFormed = false ∧
    (Instr.sysNnn 0x0E1#12).wellFormed = true ∧ (Instr.sysNnn 0x000#12).wellFormed = true := by decide

/-! ## Decoding: the words of R153 to R269, written out from the patterns of R110 -/

theorem test_decode_control : decodeWord 0b0000000100100011#16 = .instr (.sysNnn 0x123#12) ∧
    decodeWord 0b0000000011101110#16 = .instr .ret ∧ decodeWord 0b0001001001011000#16 = .instr (.jpNnn 0x258#12) ∧
    decodeWord 0b0010001010111100#16 = .instr (.callNnn 0x2BC#12) ∧
    decodeWord 0b0011001100000101#16 = .instr (.seVxNn 3 5) ∧ decodeWord 0b0100000011111111#16 = .instr (.sneVxNn 0 0xFF) ∧
    decodeWord 0b0101000100100000#16 = .instr (.seVxVy 1 2) ∧ decodeWord 0b1001000100100000#16 = .instr (.sneVxVy 1 2) ∧
    decodeWord 0b1011001100100000#16 = .instr (.jpV0Nnn 0x320#12) := by decide

theorem test_decode_registers : decodeWord 0b0110101001111011#16 = .instr (.ldVxNn 10 0x7B) ∧
    decodeWord 0b0111000000000011#16 = .instr (.addVxNn 0 3) ∧ decodeWord 0b1000000100100000#16 = .instr (.ldVxVy 1 2) ∧
    decodeWord 0b1000000100100001#16 = .instr (.orVxVy 1 2) ∧ decodeWord 0b1000000100100010#16 = .instr (.andVxVy 1 2) ∧
    decodeWord 0b1000000100100011#16 = .instr (.xorVxVy 1 2) ∧ decodeWord 0b1000000100100100#16 = .instr (.addVxVy 1 2) ∧
    decodeWord 0b1000000100100101#16 = .instr (.subVxVy 1 2) ∧ decodeWord 0b1000000100100110#16 = .instr (.shrVxVy 1 2) ∧
    decodeWord 0b1000000100100111#16 = .instr (.subnVxVy 1 2) ∧ decodeWord 0b1000000100101110#16 = .instr (.shlVxVy 1 2) ∧
    decodeWord 0b1100000000001111#16 = .instr (.rndVxNn 0 0x0F) := by decide

theorem test_decode_memory : decodeWord 0b1010001100000000#16 = .instr (.ldINnn 0x300#12) ∧
    decodeWord 0b1111000000011110#16 = .instr (.addIVx 0) ∧ decodeWord 0b1111000000101001#16 = .instr (.ldFVx 0) ∧
    decodeWord 0b1111101000110011#16 = .instr (.ldBVx 10) ∧ decodeWord 0b1111001001010101#16 = .instr (.ldMemVx 2) ∧
    decodeWord 0b1111001001100101#16 = .instr (.ldVxMem 2) := by decide

theorem test_decode_display : decodeWord 0b0000000011100000#16 = .instr .cls ∧
    decodeWord 0b1101000100100101#16 = .instr (.drwVxVyN 1 2 5) := by decide

theorem test_decode_keys_timers : decodeWord 0b1110000010011110#16 = .instr (.skpVx 0) ∧
    decodeWord 0b1110000010100001#16 = .instr (.sknpVx 0) ∧ decodeWord 0b1111001100001010#16 = .instr (.ldVxK 3) ∧
    decodeWord 0b1111010100000111#16 = .instr (.ldVxDt 5) ∧ decodeWord 0b1111000000010101#16 = .instr (.ldDtVx 0) ∧
    decodeWord 0b1111000100011000#16 = .instr (.ldStVx 1) := by decide

/-- R112: the first and last words of each gap of the map. -/
theorem test_decode_unsupported : decodeWord 0x5001#16 = .unsupported 0x5001 ∧ decodeWord 0x5FFF#16 = .unsupported 0x5FFF ∧
    decodeWord 0x8008#16 = .unsupported 0x8008 ∧ decodeWord 0x8FFD#16 = .unsupported 0x8FFD ∧
    decodeWord 0x800F#16 = .unsupported 0x800F ∧ decodeWord 0x9001#16 = .unsupported 0x9001 ∧
    decodeWord 0x9FFF#16 = .unsupported 0x9FFF ∧ decodeWord 0xE000#16 = .unsupported 0xE000 ∧
    decodeWord 0xE09D#16 = .unsupported 0xE09D ∧ decodeWord 0xE09F#16 = .unsupported 0xE09F ∧
    decodeWord 0xE0A0#16 = .unsupported 0xE0A0 ∧ decodeWord 0xEFA2#16 = .unsupported 0xEFA2 ∧
    decodeWord 0xF006#16 = .unsupported 0xF006 ∧ decodeWord 0xF008#16 = .unsupported 0xF008 ∧
    decodeWord 0xF054#16 = .unsupported 0xF054 ∧ decodeWord 0xF066#16 = .unsupported 0xF066 ∧
    decodeWord 0xFFFF#16 = .unsupported 0xFFFF := by decide

/-- R74, R115: the byte at the lower address is the high half, and a single byte is no word. -/
theorem test_decode_bytes : decodeBytes [0x12, 0x58, 0xFF] = .instr (.jpNnn 600#12) [0xFF] ∧
    decodeTableWord 16 0x1258 = some (.jpNnn 600#12) ∧ decodeTableWord 16 0x5121 = none := by decide

/-! ## The step (L2.1) -/

/-- L2.1 #2. -/
theorem test_step_last_word : after (at' 0xFFE) 0x6001 (fun t => (t.pc, t.getV 0, t.outcome)) = some (0x1000, 1, .ok) := by
  decide

/-- L2.1 #3, #15: a fetch beyond memory, with the keys moved on. -/
theorem test_step_fetch_range : stepped { at' 0x1000 with keys := down [3] } (fun t => (t.pc, t.outcome, t.latch, t.prevKeys)) =
    some (0x1000, faultOf .fetchRange 0x1000, some (.addressFault .fetchRange 0x1000), down [3]) := by decide

/-- R131: the range is tested before the alignment. -/
theorem test_step_fetch_odd : stepped (at' 0xFFF) (·.outcome) = some (faultOf .fetchRange 0xFFF) ∧
    stepped (at' 0xFFD) (·.outcome) = some (faultOf .fetchMisaligned 0xFFD) := by decide

/-- L2.1 #5: not latched. -/
theorem test_step_unsupported : after (at' 0x200) 0x5121 (fun t => (t.pc, t.outcome, t.latch)) =
    some (0x202, .unsupportedInstruction 0x5121, none) := by decide

/-- L2.1 #14. -/
theorem test_step_prev_keys : after { at' 0x200 with keys := down [3] } 0x6001 (·.prevKeys) = some (down [3]) := by decide

/-- L2.8: the first step after construction with no ROM. -/
theorem test_step_from_reset : stepped State.reset (fun t => (t.pc, t.outcome)) = some (0x202, .unsupportedInstruction 0) := by
  decide

/-! ## Control flow (L2.2) -/

/-- L2.2 #3, #4. -/
theorem test_jp : after (at' 0x200) 0x1FFE (fun t => (t.pc, t.outcome)) = some (0xFFE, .ok) ∧
    after (at' 0x200) 0x1FFF (fun t => (t.pc, t.outcome)) = some (0x202, faultOf .misalignedTarget 0xFFF) := by decide

/-- L2.2 #7. -/
theorem test_call : after (depth (at' 0x200) 15) 0x2300 (fun t => (t.pc, t.sp.val, t.stack[15], t.outcome)) =
    some (0x300, 16, 0x202, .ok) := by decide

/-- L2.2 #9, #10. -/
theorem test_call_faults : after (depth (at' 0x200) 16) 0x2301 (fun t => (t.pc, t.sp.val, t.outcome)) =
      some (0x202, 16, .fatal .stackOverflow) ∧
    after (depth (at' 0x200) 3) 0x2301 (fun t => (t.pc, t.sp.val, t.outcome)) =
      some (0x202, 3, faultOf .misalignedTarget 0x301) := by decide

/-- L2.2 #11, #13. -/
theorem test_ret : after ((at' 0x210).setStack ((Vector.replicate 16 0).set 0 0x206) 1) 0x00EE (fun t => (t.pc, t.sp.val)) =
      some (0x206, 0) ∧
    after (at' 0x210) 0x00EE (fun t => (t.pc, t.outcome)) = some (0x212, .fatal .stackUnderflow) := by decide

/-- L2.2 #14 to #17. -/
theorem test_skip_immediate : after ((at' 0x208).setV 3 5) 0x3305 (·.pc) = some 0x20C ∧
    after ((at' 0x208).setV 3 6) 0x3305 (·.pc) = some 0x20A ∧ after (at' 0x200) 0x40FF (·.pc) = some 0x204 ∧
    after ((at' 0x200).setV 0 0xFF) 0x40FF (·.pc) = some 0x202 := by decide

/-- L2.2 #18, #19, #21, #22. -/
theorem test_skip_register : after (regs (at' 0x300) [(1, 0x7F), (2, 0x7F)]) 0x5120 (·.pc) = some 0x304 ∧
    after (regs (at' 0x300) [(1, 1), (2, 2)]) 0x5120 (·.pc) = some 0x302 ∧
    after (regs (at' 0x300) [(1, 1), (2, 2)]) 0x9120 (·.pc) = some 0x304 ∧
    after (at' 0x300) 0x9110 (·.pc) = some 0x302 := by decide

/-- L2.2 #25, #27: the sum is not masked. -/
theorem test_jp_v0 : after ((at' 0x200).setV 0 0xFF) 0xBFFF (·.pc) = some 0x10FE ∧
    after ((at' 0x200).setV 0 1) 0xB300 (fun t => (t.pc, t.outcome)) = some (0x202, faultOf .misalignedTarget 0x301) := by
  decide

/-- L2.1 #11. -/
theorem test_sys : after (at' 0x200) 0x0123 (fun t => (t.pc, t.outcome, t.latch)) =
    some (0x202, .unsupportedInstruction 0x0123, none) := by decide

/-! ## Registers and arithmetic (L2.3) -/

/-- L2.3 #1, #6. -/
theorem test_ld : after (at' 0x200) 0x6A7B (·.getV 10) = some 0x7B ∧
    after ((at' 0x200).setV 2 0x33) 0x8120 (·.getV 1) = some 0x33 := by decide

/-- L2.3 #4, #5. -/
theorem test_add_immediate : after (regs (at' 0x200) [(0, 0xFF), (15, 0x55)]) 0x7001 (fun t => (t.getV 0, t.getV 15)) =
      some (0, 0x55) ∧
    after ((at' 0x200).setV 15 0xFF) 0x7F01 (·.getV 15) = some 0 := by decide

/-- L2.3 #7 to #10. -/
theorem test_logic : after (regs (at' 0x200) [(1, 0x0F), (2, 0xF0), (15, 7)]) 0x8121 (fun t => (t.getV 1, t.getV 15)) =
      some (0xFF, 7) ∧
    after { regs (at' 0x200) [(1, 0x0F), (2, 0xF0), (15, 7)] with params := others } 0x8121
      (fun t => (t.getV 1, t.getV 15)) = some (0xFF, 0) ∧
    after (regs (at' 0x200) [(1, 0x3C), (2, 0x0F)]) 0x8122 (·.getV 1) = some 0x0C ∧
    after (regs (at' 0x200) [(1, 0x3C), (2, 0x0F)]) 0x8123 (·.getV 1) = some 0x33 := by decide

/-- L2.3 #12, #18, #19. -/
theorem test_add : after (regs (at' 0x200) [(1, 250), (2, 10)]) 0x8124 (fun t => (t.getV 1, t.getV 15)) = some (4, 1) ∧
    after (regs (at' 0x200) [(15, 0x10), (1, 5)]) 0x8F14 (·.getV 15) = some 0 ∧
    after (regs (at' 0x200) [(15, 0xFF), (1, 1)]) 0x81F4 (fun t => (t.getV 1, t.getV 15)) = some (0, 1) := by decide

/-- L2.3 #21, #22, #24. -/
theorem test_sub : after (regs (at' 0x200) [(1, 5), (2, 10)]) 0x8125 (fun t => (t.getV 1, t.getV 15)) = some (0xFB, 0) ∧
    after (regs (at' 0x200) [(1, 7), (2, 7)]) 0x8125 (fun t => (t.getV 1, t.getV 15)) = some (0, 1) ∧
    after (regs (at' 0x200) [(15, 5), (1, 3)]) 0x8F15 (·.getV 15) = some 1 := by decide

/-- L2.3 #25, #26. -/
theorem test_subn : after (regs (at' 0x200) [(1, 5), (2, 10)]) 0x8127 (fun t => (t.getV 1, t.getV 15)) = some (5, 1) ∧
    after (regs (at' 0x200) [(1, 10), (2, 5)]) 0x8127 (fun t => (t.getV 1, t.getV 15)) = some (0xFB, 0) := by decide

/-- L2.3 #28, #31 to #33. -/
theorem test_shr : after ((at' 0x200).setV 1 0x81) 0x8106 (fun t => (t.getV 1, t.getV 15)) = some (0x40, 1) ∧
    after ((at' 0x200).setV 2 3) 0x8126 (fun t => (t.getV 1, t.getV 15)) = some (0, 0) ∧
    after { (at' 0x200).setV 2 3 with params := others } 0x8126 (fun t => (t.getV 1, t.getV 15, t.getV 2)) = some (1, 1, 3) ∧
    after ((at' 0x200).setV 15 3) 0x8F06 (·.getV 15) = some 1 := by decide

/-- L2.3 #34, #35, #37, #38. -/
theorem test_shl : after ((at' 0x200).setV 1 0x81) 0x810E (fun t => (t.getV 1, t.getV 15)) = some (2, 1) ∧
    after ((at' 0x200).setV 1 0x40) 0x810E (fun t => (t.getV 1, t.getV 15)) = some (0x80, 0) ∧
    after { (at' 0x200).setV 2 0x81 with params := others } 0x812E (fun t => (t.getV 1, t.getV 15)) = some (2, 1) ∧
    after ((at' 0x200).setV 15 3) 0x8F0E (·.getV 15) = some 0 := by decide

/-- L2.3 #39, for the draw the vector names. -/
theorem test_rnd (h : Config.randomByte 0 = 0xAB) : after (at' 0x200) 0xC00F (·.getV 0) = some 0x0B :=
  (congrArg (fun b => some (b &&& 0x0F#8)) h).trans (by decide)

/-! ## Index and memory (L2.4) -/

/-- L2.4 #1, #10 to #12. -/
theorem test_ld_i : after (at' 0x200) 0xA300 (·.i) = some 0x300 ∧ after ((at' 0x200).setV 0 0x0F) 0xF029 (·.i) = some 75 ∧
    after ((at' 0x200).setV 0 0x10) 0xF029 (·.i) = some 80 ∧ after ((at' 0x200).setV 0 0xFF) 0xF029 (·.i) = some 1275 := by
  decide

/-- L2.4 #2 to #5. -/
theorem test_add_i : after { (at' 0x200).setV 0 1 with i := 0x0FFF } 0xF01E (fun t => (t.i, t.getV 15)) = some (0x1000, 1) ∧
    after { (at' 0x200).setV 0 1 with i := 0x0FFE } 0xF01E (fun t => (t.i, t.getV 15)) = some (0x0FFF, 0) ∧
    after { (at' 0x200).setV 0 1 with i := 0xFFFF } 0xF01E (fun t => (t.i, t.getV 15)) = some (0, 1) ∧
    after { at' 0x200 with i := 0x1000 } 0xF01E (fun t => (t.i, t.getV 15)) = some (0x1000, 1) := by decide

/-- L2.4 #6, #7. -/
theorem test_add_i_flag : after { regs (at' 0x200) [(0, 1), (15, 0x42)] with i := 0x0FFF, params := others } 0xF01E
      (fun t => (t.i, t.getV 15)) = some (0x1000, 0x42) ∧
    after { (at' 0x200).setV 15 0x10 with i := 0x100 } 0xFF1E (fun t => (t.i, t.getV 15)) = some (0x110, 0) := by decide

/-- L2.4 #14, #16 to #18. -/
theorem test_ld_b : after { (at' 0x200).setV 0 255 with i := 0x300 } 0xF033 (fun t => t.mem.readBytes 0x300 3) =
      some [2, 5, 5] ∧
    after { (at' 0x200).setV 10 123 with i := 0x300 } 0xFA33 (fun t => (t.mem.readBytes 0x300 3, t.i)) =
      some ([1, 2, 3], 0x300) ∧
    after { (at' 0x200).setV 0 1 with i := 0xFFD } 0xF033 (fun t => t.mem.readBytes 0xFFD 3) = some [0, 0, 1] ∧
    after { (at' 0x200).setV 0 1 with i := 0xFFE } 0xF033 (fun t => (t.mem.readBytes 0xFFE 2, t.outcome)) =
      some ([0, 0], faultOf .writeRange 0xFFE) := by decide

/-- L2.4 #20 to #22. -/
theorem test_ld_mem : after { regs (at' 0x200) [(0, 1), (1, 2), (2, 3)] with i := 0x400, params := others } 0xF255
      (fun t => (t.mem.readBytes 0x400 4, t.i)) = some ([1, 2, 3, 0], 0x403) ∧
    after { regs (at' 0x200) [(0, 0xAA), (1, 0xBB)] with i := 0xFFE } 0xF155 (fun t => (t.mem.readBytes 0xFFE 2, t.i)) =
      some ([0xAA, 0xBB], 0xFFE) ∧
    after { (at' 0x200).setV 0 1 with i := 0xFFE } 0xF255 (fun t => (t.mem.readBytes 0xFFE 2, t.outcome)) =
      some ([0, 0], faultOf .writeRange 0xFFE) := by decide

/-- L2.4 #25 to #27. -/
theorem test_ld_from_mem : after { bytes (at' 0x200) 0x300 [1, 2, 3] with i := 0x300, params := others } 0xF265
      (fun t => (t.getV 0, t.getV 1, t.getV 2, t.i)) = some (1, 2, 3, 0x303) ∧
    after { at' 0x200 with i := 0x019 } 0xF065 (·.getV 0) = some 0xF0 ∧
    after { at' 0x200 with i := 0x1000 } 0xF065 (fun t => (t.getV 0, t.outcome)) = some (0, faultOf .readRange 0x1000) := by
  decide

/-- L2.4 #28, #29: the last block that fits, VF loaded as data. -/
theorem test_ld_from_mem_all : after { bytes (at' 0x200) 0xFF0 [0, 1, 2, 3, 4, 5, 6, 7, 8, 9, 10, 11, 12, 13, 14, 15] with i := 0xFF0 }
      0xFF65 (·.v.toList) = some [0, 1, 2, 3, 4, 5, 6, 7, 8, 9, 10, 11, 12, 13, 14, 15] ∧
    after { at' 0x200 with i := 0xFF1 } 0xFF65 (·.outcome) = some (faultOf .readRange 0xFF1) := by decide

/-! ## Display (L2.5) -/

/-- L2.5 #1. -/
theorem test_cls : after { (at' 0x200).setV 15 5 with fb := State.reset.fb.setPixel 3 4 true } 0x00E0
    (fun t => (t.fb.pixel 3 4, t.clearedFlag, t.drawFlag, t.getV 15)) = some (false, true, false, 5) := by decide

/-- The five rows of the font's glyph 5, with the blank pixels around it. -/
def five : List (List Nat) :=
  [[0, 1, 1, 1, 1, 0], [0, 1, 0, 0, 0, 0], [0, 1, 1, 1, 1, 0], [0, 0, 0, 0, 1, 0], [0, 1, 1, 1, 1, 0], [0, 0, 0, 0, 0, 0]]

/-- L2.5 #2. -/
theorem test_drw : after { at' 0x200 with i := 0x19 } 0xD125 (fun t => (window t 63 0 6 6, t.getV 15, t.drawFlag)) =
    some (five, 0, true) := by decide +kernel

/-- L2.5 #4: it wraps in both directions. -/
theorem test_drw_wraps : after { regs (at' 0x200) [(1, 62), (2, 30)] with i := 0x19 } 0xD125
    (fun t => (window t 61 30 6 6, t.getV 15)) = some (five, 0) := by decide +kernel

/-- L2.5 #6, #8 to #11. -/
theorem test_drw_flags : after ((at' 0x200).setV 15 0x55) 0xD120 (fun t => (t.getV 15, t.drawFlag)) = some (0, true) ∧
    after { at' 0x200 with i := 0xFF2 } 0xD12F (fun t => (t.drawFlag, t.outcome)) = some (false, faultOf .readRange 0xFF2) ∧
    after { bytes (at' 0x200) 0x300 [0x80] with i := 0x300, fb := State.reset.fb.setPixel 0 0 true } 0xD121
      (fun t => (t.fb.pixel 0 0, t.getV 15)) = some (false, 1) ∧
    after { bytes (at' 0x200) 0x300 [0x80] with i := 0x300, fb := State.reset.fb.setPixel 1 0 true } 0xD121
      (fun t => (t.fb.pixel 0 0, t.fb.pixel 1 0, t.getV 15)) = some (true, true, 0) ∧
    after { bytes ((at' 0x200).setV 15 5) 0x300 [0x80] with i := 0x300 } 0xDF21 (fun t => (t.fb.pixel 5 0, t.getV 15)) =
      some (true, 0) := by decide

/-! ## Keypad and timers (L2.6) -/

/-- L2.6 #1 to #6. -/
theorem test_skip_key : after { (at' 0x200).setV 0 5 with keys := down [5] } 0xE09E (·.pc) = some 0x204 ∧
    after ((at' 0x200).setV 0 5) 0xE09E (·.pc) = some 0x202 ∧ after ((at' 0x200).setV 0 5) 0xE0A1 (·.pc) = some 0x204 ∧
    after { (at' 0x200).setV 0 5 with keys := down [5] } 0xE0A1 (·.pc) = some 0x202 ∧
    after ((at' 0x200).setV 0 0x10) 0xE09E (fun t => (t.pc, t.outcome)) = some (0x202, faultOf .keyIndex 0x10) ∧
    after ((at' 0x200).setV 0 0xFF) 0xE0A1 (·.outcome) = some (faultOf .keyIndex 0xFF) := by decide

/-- L2.6 #7, #9: no edge. -/
theorem test_key_wait : after (at' 0x200) 0xF30A (fun t => (t.pc, t.outcome)) = some (0x200, .ok) ∧
    after { at' 0x200 with keys := down [7], prevKeys := down [7] } 0xF30A (·.pc) = some 0x200 := by decide

/-- L2.6 #8, #10 to #12: an edge. -/
theorem test_key_taken : after { at' 0x200 with keys := down [7] } 0xF30A (fun t => (t.getV 3, t.pc, t.prevKeys)) =
      some (7, 0x202, down [7]) ∧
    after { at' 0x200 with keys := down [2, 9] } 0xF30A (·.getV 3) = some 2 ∧
    after { at' 0x200 with keys := down [2, 9], prevKeys := down [2] } 0xF30A (·.getV 3) = some 9 ∧
    after { at' 0x200 with keys := down [4] } 0xFF0A (·.getV 15) = some 4 := by decide

/-- L2.6 #13 to #15. -/
theorem test_timers : after { at' 0x200 with dt := 0x3C } 0xF507 (fun t => (t.getV 5, t.dt)) = some (0x3C, 0x3C) ∧
    after ((at' 0x200).setV 0 3) 0xF015 (·.dt) = some 3 ∧ after ((at' 0x200).setV 1 0x10) 0xF118 (·.st) = some 0x10 := by
  decide

/-- L2.6 #16, #18. -/
theorem test_tick : ({ State.reset with dt := 3, st := 1 } : State).tickTimers = { State.reset with dt := 2, st := 0 } ∧
    State.reset.tickTimers = State.reset := by decide

/-! ## Construction and the host interface (L1.6, L2.7, L2.8) -/

/-- R52, L2.8: the font in 0 to 79, zeros above. -/
theorem test_reset_memory : State.reset.mem.readBytes 0 5 = [0xF0, 0x90, 0x90, 0x90, 0xF0] ∧
    State.reset.mem.readBytes 75 7 = [0xF0, 0x80, 0xF0, 0x80, 0x80, 0, 0] ∧ State.reset.mem.read 0xFFF = 0 := by decide

/-- L1.6. -/
theorem test_load : (load [] [0x12, 0x00]).1 = .loadOk ∧ (load [] [0x12, 0x00]).2.readBytes 0x1FF 4 = [0, 0x12, 0, 0] ∧
    (load [] []).2 = [] := by decide

/-- L1.6: a ROM of 3585 bytes. -/
theorem test_load_too_large : load [] (List.replicate 3585 1) = (.romTooLarge, []) := by
  simp only [load, List.length_replicate, romMax]; rfl

/-- L2.7 #3. -/
theorem test_set_keys : (State.reset.setKeys (down [1, 15])).keys = down [1, 15] ∧
    (State.reset.setKeys (down [1, 15])).prevKeys = down [] := by decide

/-! ## Witnesses: for each statement with hypotheses, states and operands that meet them -/

/-- A state in the middle of a program: a subroutine two calls deep that the memory holds, keys down, timers running. -/
def running : State := { (depth (at' 0x208) 2).setV 1 7 with i := 0x300, dt := 3, st := 1, keys := down [3], prevKeys := down [3] }

/-- A state with a fatal outcome latched. -/
def stopped : State := { running with latch := some .stackOverflow, outcome := .fatal .stackOverflow }

/-- L2.1 #4. -/
theorem test_step_latched : step stopped = .fault (.latched .stackOverflow) := rfl

theorem witness_DecodeOfEncodeIsTheInstruction : (Instr.sysNnn 0x0DF#12).wellFormed = true ∧
    (Instr.drwVxVyN 15 15 15).wellFormed = true := by decide

theorem witness_EncodeOfDecodeIsTheWord : decodeWord 0xDFFF#16 = .instr (.drwVxVyN 15 15 15) ∧
    decodeWord 0x00E1#16 = .instr (.sysNnn 0x0E1#12) := by decide

theorem witness_StepRunsTheDecodedInstruction :
    ∃ s : State, s.latch = none ∧ s.pc.toNat ≤ 0xFFE ∧ s.pc.toNat % 2 = 0 ∧
      decodeBytes [s.mem.read s.pc.toNat, s.mem.read (s.pc.toNat + 1)] = .instr (.addVxVy 1 2) [] :=
  ⟨bytes (at' 0xFFE) 0xFFE [0x81, 0x24], by decide⟩

theorem witness_LatchedStepReturnsTheLatchedOutcome : stopped.latch = some .stackOverflow := by decide

/-- For each clause, at the ends of its range. -/
theorem witness_FetchFaultsAreReportedAndLatched :
    (at' 0xFFF).latch = none ∧ 0xFFE < (at' 0xFFF).pc.toNat ∧ 0xFFE < (at' 0xFFFF).pc.toNat ∧
      (at' 0xFFD).pc.toNat ≤ 0xFFE ∧ (at' 0xFFD).pc.toNat % 2 = 1 ∧ (at' 1).pc.toNat % 2 = 1 := by decide

theorem witness_UnsupportedWordIsReportedAndPassed :
    ∃ s : State, s.latch = none ∧ s.pc.toNat ≤ 0xFFE ∧ s.pc.toNat % 2 = 0 ∧
      decodeBytes [s.mem.read s.pc.toNat, s.mem.read (s.pc.toNat + 1)] = .unsupported 0xFFFF [] :=
  ⟨bytes (at' 0xFFE) 0xFFE [0xFF, 0xFF], by decide⟩

theorem witness_EveryStepFinishes : ∃ t, step (running.withFetchWord 16 0xF30A) = .next t := ⟨_, rfl⟩

theorem witness_EveryUnlatchedStepAnswers : running.latch = none := by decide

/-- A fetch fault, and an outcome of an instruction. -/
theorem witness_OutcomesArePrecise :
    (∃ t, step (at' 0x1000) = .next t ∧ t.outcome = faultOf .fetchRange 0x1000) ∧
      ∃ t, step ((at' 0x200).withFetchWord 16 0x00EE) = .next t ∧ t.outcome = .fatal .stackUnderflow :=
  ⟨⟨_, rfl, by decide⟩, _, rfl, by decide⟩

/-- For each clause, an instruction that raises its outcome. -/
theorem witness_OutcomesAreRaisedByTheNamedInstructions :
    (∃ t, exec (.sysNnn 0) running = .next t ∧ t.outcome = .unsupportedInstruction 0) ∧
    (∃ t, exec (.callNnn 0x301#12) (depth running 16) = .next t ∧ t.outcome = .fatal .stackOverflow) ∧
    (∃ t, exec .ret (depth running 0) = .next t ∧ t.outcome = .fatal .stackUnderflow) ∧
    (∃ t, exec (.ldVxMem 15) { running with i := 0xFF1 } = .next t ∧ t.outcome = faultOf .readRange 0xFF1) ∧
    (∃ t, exec (.ldBVx 0) { running with i := 0xFFE } = .next t ∧ t.outcome = faultOf .writeRange 0xFFE) ∧
    (∃ t, exec (.jpNnn 0x001#12) running = .next t ∧ t.outcome = faultOf .misalignedTarget 1) ∧
    (∃ t, exec (.callNnn 0xFFF#12) (depth running 15) = .next t ∧ t.outcome = faultOf .misalignedTarget 0xFFF) ∧
    (∃ t, exec (.jpV0Nnn 0xFFE#12) (running.setV 0 0xFF) = .next t ∧ t.outcome = faultOf .misalignedTarget 0x10FD) ∧
    ∃ t, exec (.sknpVx 0) (running.setV 0 16) = .next t ∧ t.outcome = faultOf .keyIndex 16 :=
  ⟨⟨_, rfl, by decide⟩, ⟨_, rfl, by decide⟩, ⟨_, rfl, by decide⟩, ⟨_, rfl, by decide⟩, ⟨_, rfl, by decide⟩,
    ⟨_, rfl, by decide⟩, ⟨_, rfl, by decide⟩, ⟨_, rfl, by decide⟩, _, rfl, by decide⟩

/-- A state that meets the invariant with two stack entries in use, and its step. -/
theorem witness_StepKeepsTheInvariant :
    (running.withFetchWord 16 0x00EE).Inv ∧ ∃ t, step (running.withFetchWord 16 0x00EE) = .next t :=
  ⟨⟨by decide, by decide, by decide, by decide, fun f h => by cases h⟩, _, rfl⟩

theorem witness_MisalignedFetchIsUnreachable :
    (running.withFetchWord 16 0x1FFE).Inv ∧ ∃ t, step (running.withFetchWord 16 0x1FFE) = .next t :=
  ⟨⟨by decide, by decide, by decide, by decide, fun f h => by cases h⟩, _, rfl⟩

theorem frame_from_memory (m : Memory) (n : Nat) (any : ArbitraryFill) (k : Vector Bool 16) :
    ∃ y, transactAll Build.default (.memory m n) [.load [0x12, 0x00], .constructEngine any, .setKeys k, .step, .tickTimers] =
      .next y := by
  simp only [transactAll, transact, bootOp, runtimeOp]
  generalize (constructEngine _ _ _ _).setKeys _ = s
  rcases stepReply_cases s with ⟨t, -, e⟩ | ⟨f, -, e⟩ <;> (rw [e]; exact ⟨_, rfl⟩)

/-- Boot, then a frame of the host: keys, a step, a tick. -/
theorem witness_EveryRunOfTheHostKeepsTheInvariant (any : ArbitraryFill) (k : Vector Bool 16) :
    ∃ y, transactAll Build.default .empty [.constructMemory any, .load [0x12, 0x00], .constructEngine any, .setKeys k, .step,
      .tickTimers] = .next y := by
  rw [transactAll_cons _ _ _ _ _ _ (transact_constructMemory Build.default .empty any)]
  exact frame_from_memory _ _ _ _

/-- A transaction from each phase of the boot, from systems that meet the invariant. -/
theorem witness_EveryTransactionKeepsTheInvariant (any : ArbitraryFill) :
    (∃ z r, systemInv .empty ∧ transact Build.default .empty (.constructMemory any) = .next (z, r)) ∧
    (∃ z r, systemInv (.memory [(512, 0x12)] 5) ∧
      transact Build.default (.memory [(512, 0x12)] 5) (.constructEngine any) = .next (z, r)) ∧
    ∃ z r, systemInv (.engine (running.withFetchWord 16 0x00EE)) ∧
      transact Build.default (.engine (running.withFetchWord 16 0x00EE)) .step = .next (z, r) :=
  ⟨⟨_, _, trivial, transact_constructMemory Build.default .empty any⟩, ⟨_, _, (by decide : Memory.wf [(512, 0x12)] = true), rfl⟩,
    _, _, witness_StepKeepsTheInvariant.1, rfl⟩

/-- An engine that has drawn, constructed anew and stepping over RND. -/
theorem witness_NoTransactionTakesBackADraw (any : ArbitraryFill) :
    (∃ z r, transact Build.default (.engine { running with draws := 5 }) (.constructMemory any) = .next (z, r) ∧ z.drawn = 5) ∧
    ∃ s t r, transact Build.default (.engine s) .step = .next (.engine t, r) ∧ s.latch = none ∧ s.fetchFault = none ∧
      decodeWord s.fetchWord = .instr (.rndVxNn 3 0x0F) :=
  ⟨⟨_, _, transact_constructMemory Build.default _ any, rfl⟩, running.withFetchWord 16 0xC30F, _, _, rfl, rfl, by decide,
    by decide⟩

theorem witness_LatchIsKeptUntilConstruction :
    stopped.latch = some .stackOverflow ∧ ∃ t r, transact Build.default (.engine stopped) .step = .next (.engine t, r) :=
  ⟨by decide, _, _, rfl⟩

theorem witness_JumpSetsPcOrFaults : (0xFFE#12).toNat % 2 = 0 ∧ (0xFFF#12).toNat % 2 = 1 := by decide

theorem witness_CallPushesTheReturnAddress : (depth running 16).sp.val = 16 ∧
    ((depth running 15).sp.val < 16 ∧ (0xFFF#12).toNat % 2 = 1) ∧ (depth running 15).sp.val < 16 ∧
    (0xFFE#12).toNat % 2 = 0 := by decide

theorem witness_ReturnPopsPc : (depth running 0).sp.val = 0 ∧ (depth running 1).sp.val = (0 : Fin 16).val + 1 ∧
    (depth running 16).sp.val = (15 : Fin 16).val + 1 := by decide

theorem witness_ReturnUndoesCall : (depth running 15).sp.val < 16 ∧ (0x300#12).toNat % 2 = 0 ∧
    ∃ t, exec (.callNnn 0x300#12) (depth running 15) = .next t ∧ ∃ u : State, u.stack = t.stack ∧ u.sp = t.sp :=
  ⟨by decide, by decide, _, rfl, _, rfl, rfl⟩

theorem witness_OffsetJumpAddsV0 : ((0xFFF#12).toNat + ((running.setV 0 0xFF).getV 0).toNat) % 2 = 0 ∧
    ((0xFFF#12).toNat + ((running.setV 0 0xFE).getV 0).toNat) % 2 = 1 := by decide

theorem witness_SysIsReportedAsUnsupported : (0x0E1#12 ≠ 0x0E0#12 ∧ 0x0E1#12 ≠ 0x0EE#12) ∧ 0x000#12 ≠ 0x0E0#12 := by decide

theorem witness_SkipsAddTwoWhenTheirConditionHolds : (1 : Height).val ≠ 0 ∧ (15 : Height).val ≠ 0 := by decide

theorem witness_SelfJumpChangesNothing : ∃ s : State, s.latch = none ∧ s.pc.toNat = (0xFFE#12).toNat ∧ (0xFFE#12).toNat % 2 = 0 ∧
    s.mem.read s.pc.toNat = highByte (encode (.jpNnn 0xFFE#12)) ∧
    s.mem.read (s.pc.toNat + 1) = lowByte (encode (.jpNnn 0xFFE#12)) :=
  ⟨bytes (at' 0xFFE) 0xFFE [0x1F, 0xFE], by decide⟩

/-- Both values of P_LOGIC_VF, a destination that is not VF, and VF itself under UNCHANGED and under RESET. -/
theorem witness_LogicIsBitwise :
    (Instr.xorVxVy 1 2, 0x8003#16, Bool.xor) ∈ [(Instr.orVxVy 1 2, 0x8001#16, Bool.or), (.andVxVy 1 2, 0x8002#16, Bool.and),
      (.xorVxVy 1 2, 0x8003#16, Bool.xor)] ∧
    (Instr.orVxVy 15 2, 0x8001#16, Bool.or) ∈ [(Instr.orVxVy 15 2, 0x8001#16, Bool.or), (.andVxVy 15 2, 0x8002#16, Bool.and),
      (.xorVxVy 15 2, 0x8003#16, Bool.xor)] ∧ running.params.logicVF = .unchanged ∧ (1 : Reg) ≠ VF ∧
    ({ running with params := others } : State).params.logicVF = .reset := ⟨by simp, by simp, by decide⟩

theorem witness_AddSetsCarry : (14 : Reg) ≠ VF := by decide
theorem witness_SubtractionSetsNotBorrow : (14 : Reg) ≠ VF := by decide
theorem witness_ShiftsMoveOneBitIntoVF : (14 : Reg) ≠ VF := by decide
theorem witness_RandomIsAMaskedFreshDraw : 0 < 8 ∧ 7 < 8 := by decide
theorem witness_AluInstructionsTouchOnlyRegisters : isAlu (.ldVxNn 15 0xFF) = true ∧ isAlu (.rndVxNn 0 0) = true := by decide

theorem witness_RegisterWritesFollowTheTable : (∃ t, exec (.ldVxMem 3) running = .next t) ∧
    (4 : Reg) ∉ registersWritten running.params (.ldVxMem 3) := ⟨⟨_, rfl⟩, by decide⟩

theorem witness_IndexAddFlagsOverflow : running.params.fx1eVF = .overflowFlag := by decide

theorem witness_BcdStoresThreeDigits : running.mem.wf = true ∧ ({ running with i := 0xFFD } : State).i.toNat + 2 ≤ 0xFFF ∧
    0xFFF < ({ running with i := 0xFFE } : State).i.toNat + 2 := by decide

theorem witness_RegisterDumpStoresTheBlock : running.mem.wf = true ∧
    ({ running with i := 0xFF0 } : State).i.toNat + (15 : Reg).val ≤ 0xFFF ∧
    0xFFF < ({ running with i := 0xFF1 } : State).i.toNat + (15 : Reg).val := by decide

theorem witness_RegisterLoadReadsTheBlock : ({ running with i := 0xFF0 } : State).i.toNat + (15 : Reg).val ≤ 0xFFF ∧
    0xFFF < ({ running with i := 0xFF1 } : State).i.toNat + (15 : Reg).val := by decide

theorem witness_StoredCodeIsFetched : running.mem.wf = true ∧ 1 ≤ (1 : Reg).val ∧
    ∃ t, exec (.ldMemVx 1) running = .next t ∧ t.outcome = .ok ∧ ∃ u : State, u.mem = t.mem ∧ u.pc = running.i :=
  ⟨by decide, by decide, _, rfl, rfl, ({ running with
    mem := running.mem.writeBytes running.i.toNat (running.regBlock 1), pc := running.i } : State), rfl, rfl⟩

theorem witness_DrawXorsTheSprite : (0 : Height).val = 0 ∧ ({ running with i := 0xFF1 } : State).i.toNat + (15 : Height).val - 1 ≤ 0xFFF ∧
    1 ≤ (15 : Height).val ∧ 0xFFF < ({ running with i := 0xFF2 } : State).i.toNat + (15 : Height).val - 1 := by decide

/-- The second state keeps the screen of the first draw; every other field is as before it. -/
theorem witness_DrawingTwiceRestoresTheScreen :
    ∃ t, exec (.drwVxVyN 1 2 5) running = .next t ∧ t.outcome = .ok ∧ ∃ u : State, u.fb = t.fb ∧ u.i = running.i ∧
      (∀ a, u.mem.read a = running.mem.read a) ∧ u.getV 1 = running.getV 1 ∧ u.getV 2 = running.getV 2 := by
  rcases exec_cases (.drwVxVyN 1 2 5) running with ⟨-, e⟩ | ⟨o, hr, -⟩
  · exact ⟨_, e, rfl, { running with fb := (effect running (.drwVxVyN 1 2 5)).fb }, rfl, rfl, fun _ => rfl, rfl, rfl⟩
  · exact absurd hr.1 (by decide)

theorem witness_KeySkipsTestTheSnapshot : ((running.setV 0 15).getV 0).toNat = (15 : Key).val ∧
    ((running.setV 0 0).getV 0).toNat = (0 : Key).val ∧ 15 < ((running.setV 0 16).getV 0).toNat := by decide

/-- A key held down is no edge; a key newly down is one. -/
theorem witness_KeyWaitTakesAnEdgeOrWaits : (∀ k, ¬ isEdge running k) ∧
    ∃ k, isEdge { running with keys := down [3, 15] } k :=
  ⟨fun k => by unfold isEdge; revert k; decide, 15, by unfold isEdge; decide⟩

/-- A step in which key 15 goes down, then the same snapshot, one with a key let go, and one with no key. -/
theorem witness_AStepConsumesEveryEdge : ∃ t, step { running with keys := down [3, 15] } = .next t ∧
    (∀ j : Key, (down [3, 15])[j] = true → t.keys[j] = true) ∧ (∀ j : Key, (down [15])[j] = true → t.keys[j] = true) ∧
    ∀ j : Key, (down [])[j] = true → t.keys[j] = true := ⟨_, rfl, by decide, by decide, by decide⟩

/-- A change of each part that the statement names a writer of. -/
theorem witness_OnlyClearAndDrawTouchTheDisplay :
    (∃ t, exec .cls { running with fb := running.fb.setPixel 0 0 true } = .next t ∧ t.fb.pixel 0 0 = false ∧
      t.clearedFlag ≠ running.clearedFlag) ∧ ∃ t, exec (.drwVxVyN 0 0 0) running = .next t ∧ t.drawFlag ≠ running.drawFlag :=
  ⟨⟨_, rfl, by decide⟩, _, rfl, by decide⟩

theorem witness_OnlyStoresChangeMemory : (∃ t, exec (.ldVxMem 3) running = .next t) ∧
    (∀ x, Instr.ldVxMem 3 ≠ .ldBVx x) ∧ ∀ x, Instr.ldVxMem 3 ≠ .ldMemVx x :=
  ⟨⟨_, rfl⟩, fun _ => nofun, fun _ => nofun⟩

theorem witness_StackIndexAndTimersHaveOnlyTheirWriters :
    (∃ t, exec .ret running = .next t ∧ t.sp ≠ running.sp) ∧
    (∃ t, exec (.ldVxMem 3) { running with params := others } = .next t ∧ t.i ≠ running.i) ∧
    (∃ t, exec (.ldDtVx 1) running = .next t ∧ t.dt ≠ running.dt) ∧
    ∃ t, exec (.ldStVx 1) running = .next t ∧ t.st ≠ running.st :=
  ⟨⟨_, rfl, by decide⟩, ⟨_, rfl, by decide⟩, ⟨_, rfl, by decide⟩, _, rfl, by decide⟩

theorem witness_ConstructionLeavesTheSpecsValues : 80 ≤ (80 : Fin 4096).val ∧ 80 ≤ (4095 : Fin 4096).val := by decide

theorem witness_LoadCopiesTheRomOrChangesNothing : Memory.wf [] = true ∧ (List.replicate 3584 (1 : Byte)).length ≤ 3584 ∧
    3584 < (List.replicate 3585 (1 : Byte)).length := by
  simp only [List.length_replicate]; decide

end Sys2Proof.Tests
end

section
/-! SUPPORT. The frame of every instruction: one rule per state update, the parts each instruction may write as a table, and
from both the frame of `exec`, from which it follows who writes what. -/

namespace Sys2Proof.Machine

/-! ## Frames compose -/

theorem Part.same_refl (p : Part) (s : State) : p.Same s s := by
  cases p <;> simp [Part.Same]

theorem Part.Same.trans {p : Part} {s t u : State} (h : p.Same s t) (h' : p.Same t u) : p.Same s u := by
  cases p with
  | stack => exact ⟨h'.1.trans h.1, h'.2.trans h.2⟩
  | memory => exact fun a => (h' a).trans (h a)
  | _ => exact Eq.trans h' h

theorem Frame.trans {s t u : State} {rs rs' : List Reg} {ps ps' : List Part} (h : Frame s t rs ps)
    (h' : Frame t u rs' ps') : Frame s u (rs ++ rs') (ps ++ ps') where
  registers r hr := by
    simp only [List.mem_append, not_or] at hr
    exact (h'.registers r hr.2).trans (h.registers r hr.1)
  others p hp := by
    simp only [List.mem_append, not_or] at hp
    exact (h.others p hp.1).trans (h'.others p hp.2)
  keys := h'.keys.trans h.keys
  prevKeys := h'.prevKeys.trans h.prevKeys
  latch := h'.latch.trans h.latch
  params := h'.params.trans h.params

theorem Frame.mono {s t : State} {rs rs' : List Reg} {ps ps' : List Part} (h : Frame s t rs ps) (hrs : rs ⊆ rs')
    (hps : ps ⊆ ps') : Frame s t rs' ps' :=
  ⟨fun r hr => h.registers r (mt (@hrs r) hr), fun p hp => h.others p (mt (@hps p) hp), h.keys, h.prevKeys, h.latch,
    h.params⟩

/-- A state that is unchanged up to the outcome meets every frame. -/
theorem setOutcome_frame (s : State) (o : StepOutcome) (rs : List Reg) (ps : List Part) :
    Frame s (s.setOutcome o) rs ps :=
  ⟨fun _ _ => rfl, fun p _ => by cases p <;> simp [Part.Same], rfl, rfl, rfl, rfl⟩

theorem frame_refl (s : State) (rs : List Reg) (ps : List Part) : Frame s s rs ps := setOutcome_frame s s.outcome rs ps

/-! ## The frame of each state update -/

section Updates
variable (s : State)

/-- An update of registers has the frame of the registers it writes. -/
theorem setRegs_frame (v : Vector Byte 16) (rs : List Reg) (hv : ∀ r, r ∉ rs → (s.setRegs v).getV r = s.getV r) :
    Frame s (s.setRegs v) rs [] :=
  ⟨hv, fun p _ => by cases p <;> simp [Part.Same], rfl, rfl, rfl, rfl⟩

theorem setV_frame (x : Reg) (b : Byte) : Frame s (s.setV x b) [x] [] :=
  setRegs_frame s _ [x] fun _ hr => s.getV_setV_of_ne b (List.ne_of_not_mem_cons hr)

theorem loadRegBlock_frame (bytes : List Byte) :
    Frame s (s.loadRegBlock bytes) ((List.finRange 16).filter fun r => decide (r.val < bytes.length)) [] :=
  setRegs_frame s _ _ fun r hr => (s.getV_loadRegBlock bytes r).trans
    (List.getD_eq_default _ _ (by simpa using hr))

/-- An update of one part that leaves the registers, the other parts and the unwritten fields alone; for an update by a
record literal all three are found by unfolding it. -/
theorem frame_of_part {t : State} (p : Part) (hv : t.v = s.v := by rfl)
    (hq : ∀ q, q ≠ p → q.Same s t := by intro q hq; cases q <;> simp_all [Part.Same])
    (hu : t.keys = s.keys ∧ t.prevKeys = s.prevKeys ∧ t.latch = s.latch ∧ t.params = s.params := by
      exact ⟨rfl, rfl, rfl, rfl⟩) : Frame s t [] [p] := by
  obtain ⟨hkeys, hprev, hlatch, hparams⟩ := hu
  exact ⟨fun r _ => by rw [State.getV, State.getV, hv], fun q hp => hq q (List.ne_of_not_mem_cons hp), hkeys, hprev,
    hlatch, hparams⟩

theorem setPc_frame (w : Word) : Frame s (s.setPc w) [] [.pc] := frame_of_part s .pc

theorem setI_frame (w : Word) : Frame s (s.setI w) [] [.i] := frame_of_part s .i

theorem setStack_frame (stack : Vector Word 16) (sp : Fin 17) : Frame s (s.setStack stack sp) [] [.stack] :=
  frame_of_part s .stack

theorem setDt_frame (b : Byte) : Frame s (s.setDt b) [] [.dt] := frame_of_part s .dt

theorem setSt_frame (b : Byte) : Frame s (s.setSt b) [] [.st] := frame_of_part s .st

theorem setFb_frame (fb : Framebuffer) : Frame s (s.setFb fb) [] [.fb] := frame_of_part s .fb

theorem setDrawFlag_frame (b : Bool) : Frame s (s.setDrawFlag b) [] [.drawFlag] := frame_of_part s .drawFlag

theorem setClearedFlag_frame (b : Bool) : Frame s (s.setClearedFlag b) [] [.clearedFlag] := frame_of_part s .clearedFlag

theorem setMem_frame (m : Memory) : Frame s (s.setMem m) [] [.memory] := frame_of_part s .memory

theorem countDraw_frame : Frame s s.countDraw [] [.draws] := frame_of_part s .draws

/-! ## The frame of each composite update -/

theorem skipIf_frame (c : Bool) : Frame s (s.skipIf c) [] [.pc] := by
  cases c with
  | false => exact frame_refl s _ _
  | true => exact setPc_frame s _

theorem setResultAndFlag_frame (x : Reg) (r f : Byte) : Frame s (s.setResultAndFlag x r f) [x, VF] [] :=
  (setV_frame s x r).trans (setV_frame _ VF f)

theorem setLogicResult_frame (x : Reg) (r : Byte) :
    Frame s (s.setLogicResult x r) (if s.params.logicVF = .reset then [x, VF] else [x]) [] := by
  unfold State.setLogicResult State.logicFlag
  cases h : s.params.logicVF with
  | unchanged => simpa [h] using setV_frame s x r
  | reset => simpa [h] using (setV_frame s x r).trans (setV_frame _ VF 0)

theorem setIndexFlag_frame (f : Byte) :
    Frame s (s.setIndexFlag f) (if s.params.fx1eVF = .overflowFlag then [VF] else []) [] := by
  unfold State.setIndexFlag
  cases s.params.fx1eVF with
  | overflowFlag => exact setV_frame s VF f
  | unchanged => exact frame_refl s _ _

theorem bumpIndex_frame (x : Reg) :
    Frame s (s.bumpIndex x) [] (if s.params.ldstI = .increment then [.i] else []) := by
  unfold State.bumpIndex
  cases s.params.ldstI with
  | unchanged => exact frame_refl s _ _
  | increment => exact setI_frame s _

theorem pickKey_frame (k : Key) (ks : List Key) :
    Frame s (s.pickKey k ks).2 [] (if s.params.keywaitPick = .any then [.draws] else []) := by
  unfold State.pickKey
  cases s.params.keywaitPick with
  | lowest => exact frame_refl s _ _
  | any => exact countDraw_frame s

end Updates

/-! ## The frame of each instruction -/

/-- The parts an instruction may write beside the registers of `registersWritten` (R33, R37, R38, R41 to R43, R47 to R49, and
the model's count of draws). -/
def partsWritten (p : Params) : Instr → List Part
  | .cls => [.fb, .clearedFlag]
  | .ret => [.stack, .pc]
  | .callNnn _ => [.stack, .pc]
  | .jpNnn _ => [.pc]
  | .jpV0Nnn _ => [.pc]
  | .seVxNn _ _ => [.pc]
  | .sneVxNn _ _ => [.pc]
  | .seVxVy _ _ => [.pc]
  | .sneVxVy _ _ => [.pc]
  | .skpVx _ => [.pc]
  | .sknpVx _ => [.pc]
  | .ldINnn _ => [.i]
  | .addIVx _ => [.i]
  | .ldFVx _ => [.i]
  | .rndVxNn _ _ => [.draws]
  | .drwVxVyN _ _ _ => [.fb, .drawFlag]
  | .ldVxK _ => .pc :: if p.keywaitPick = .any then [.draws] else []
  | .ldDtVx _ => [.dt]
  | .ldStVx _ => [.st]
  | .ldBVx _ => [.memory]
  | .ldMemVx _ => .memory :: if p.ldstI = .increment then [.i] else []
  | .ldVxMem _ => if p.ldstI = .increment then [.i] else []
  | _ => []

theorem effect_frame (s : State) (i : Instr) :
    Frame s (effect s i) (registersWritten s.params i) (partsWritten s.params i) := by
  cases i with
  | sysNnn nnn => exact frame_refl s _ _
  | cls => exact (setFb_frame s _).trans (setClearedFlag_frame _ _)
  | ret =>
    by_cases h : 0 < s.sp.val
    · simp only [effect, dif_pos h]
      exact (setStack_frame s _ _).trans (setPc_frame _ _)
    · simp only [effect, dif_neg h]
      exact frame_refl s _ _
  | callNnn nnn =>
    by_cases h : s.sp.val < 16
    · simp only [effect, dif_pos h]
      exact (setStack_frame s _ _).trans (setPc_frame _ _)
    · simp only [effect, dif_neg h]
      exact frame_refl s _ _
  | jpNnn _ | jpV0Nnn _ => exact setPc_frame s _
  | seVxNn _ _ | sneVxNn _ _ | seVxVy _ _ | sneVxVy _ _ => exact skipIf_frame s _
  | skpVx x | sknpVx x =>
    by_cases h : (s.getV x).toNat < 16
    · simp only [effect, dif_pos h]
      exact skipIf_frame s _
    · simp only [effect, dif_neg h]
      exact frame_refl s _ _
  | ldVxNn x _ | addVxNn x _ | ldVxVy x _ | ldVxDt x => exact setV_frame s x _
  | orVxVy x _ | andVxVy x _ | xorVxVy x _ => exact setLogicResult_frame s x _
  | addVxVy x _ | subVxVy x _ | shrVxVy x _ | subnVxVy x _ | shlVxVy x _ => exact setResultAndFlag_frame s x _ _
  | rndVxNn x _ => exact (countDraw_frame s).trans (setV_frame _ x _)
  | ldINnn _ | ldFVx _ => exact setI_frame s _
  | addIVx _ => exact (setI_frame s _).trans (setIndexFlag_frame _ _)
  | drwVxVyN _ _ _ => exact ((setFb_frame s _).trans (setDrawFlag_frame _ _)).trans (setV_frame _ VF _)
  | ldVxK x =>
    cases h : s.edges with
    | nil =>
      simp only [effect, h]
      exact (setPc_frame s _).mono (List.nil_subset _) (by simp [partsWritten])
    | cons k ks =>
      simp only [effect, h]
      exact ((pickKey_frame s k ks).trans (setV_frame _ x _)).mono (List.Subset.refl _) (by simp [partsWritten])
  | ldDtVx _ => exact setDt_frame s _
  | ldStVx _ => exact setSt_frame s _
  | ldBVx _ => exact setMem_frame s _
  | ldMemVx x => exact (setMem_frame s _).trans (bumpIndex_frame _ x)
  | ldVxMem x =>
    refine ((loadRegBlock_frame s _).trans (bumpIndex_frame _ x)).mono (fun r hr => ?_) (List.Subset.refl _)
    simpa only [registersWritten, List.append_nil, Memory.length_readBytes, Nat.lt_succ_iff, Fin.le_def] using hr

/-- An instruction that answers a next state changes no register and no part outside its two tables. -/
theorem exec_frame {i : Instr} {s t : State} (h : exec i s = .next t) :
    Frame s t (registersWritten s.params i) (partsWritten s.params i) := by
  rcases exec_next h with ⟨-, rfl⟩ | ⟨o, -, rfl⟩
  · simpa using (effect_frame s i).trans (setOutcome_frame _ .ok [] [])
  · exact setOutcome_frame s o _ _

/-- A part that an instruction changes stands in its table. -/
theorem exec_writes {i : Instr} {s t : State} (h : exec i s = .next t) {p : Part} (hp : ¬ p.Same s t) :
    p ∈ partsWritten s.params i :=
  by_contra fun hn => hp ((exec_frame h).others p hn)

/-! ## The writers of each part -/

section Writers
variable {p : Params} {i : Instr}

theorem writers_fb (h : .fb ∈ partsWritten p i) : i = .cls ∨ ∃ x y n, i = .drwVxVyN x y n := by
  cases i with
  | cls => exact .inl rfl
  | drwVxVyN x y n => exact .inr ⟨x, y, n, rfl⟩
  | _ => simp [partsWritten] at h

theorem writers_drawFlag (h : .drawFlag ∈ partsWritten p i) : ∃ x y n, i = .drwVxVyN x y n := by
  cases i with
  | drwVxVyN x y n => exact ⟨x, y, n, rfl⟩
  | _ => simp [partsWritten] at h

theorem writers_clearedFlag (h : .clearedFlag ∈ partsWritten p i) : i = .cls := by
  cases i with
  | cls => rfl
  | _ => simp [partsWritten] at h

theorem writers_stack (h : .stack ∈ partsWritten p i) : i = .ret ∨ ∃ nnn, i = .callNnn nnn := by
  cases i with
  | ret => exact .inl rfl
  | callNnn nnn => exact .inr ⟨nnn, rfl⟩
  | _ => simp [partsWritten] at h

theorem writers_i (h : .i ∈ partsWritten p i) :
    (∃ nnn, i = .ldINnn nnn) ∨ (∃ x, i = .addIVx x) ∨ (∃ x, i = .ldFVx x) ∨
      (p.ldstI = .increment ∧ ∃ x, i = .ldMemVx x ∨ i = .ldVxMem x) := by
  cases i with
  | ldINnn nnn => exact .inl ⟨nnn, rfl⟩
  | addIVx x => exact .inr (.inl ⟨x, rfl⟩)
  | ldFVx x => exact .inr (.inr (.inl ⟨x, rfl⟩))
  | ldMemVx x => exact .inr (.inr (.inr ⟨by simpa [partsWritten] using h, x, .inl rfl⟩))
  | ldVxMem x => exact .inr (.inr (.inr ⟨by simpa [partsWritten] using h, x, .inr rfl⟩))
  | _ => simp [partsWritten] at h

theorem writers_dt (h : .dt ∈ partsWritten p i) : ∃ x, i = .ldDtVx x := by
  cases i with
  | ldDtVx x => exact ⟨x, rfl⟩
  | _ => simp [partsWritten] at h

theorem writers_st (h : .st ∈ partsWritten p i) : ∃ x, i = .ldStVx x := by
  cases i with
  | ldStVx x => exact ⟨x, rfl⟩
  | _ => simp [partsWritten] at h

end Writers

/-- DRW raises DRAW_FLAG or, where it faults, leaves it (R47, R242). -/
theorem execDrw_drawFlag {x y : Reg} {n : Height} {s t : State} (h : exec (.drwVxVyN x y n) s = .next t) :
    t.drawFlag = true ∨ t.drawFlag = s.drawFlag := by
  rcases exec_next h with ⟨-, rfl⟩ | ⟨o, -, rfl⟩
  · exact .inl rfl
  · exact .inr rfl

/-! ## The statements -/

/-- Settles O36, by the registers of the frame. -/
theorem registerWritesFollowTheTable : Obligations.RegisterWritesFollowTheTable :=
  fun _ _ _ h => (exec_frame h).registers

/-- Settles O50, by the writers of the framebuffer and of the two flags. -/
theorem onlyClearAndDrawTouchTheDisplay : Obligations.OnlyClearAndDrawTouchTheDisplay := by
  intro i s t h
  refine ⟨fun hfb => writers_fb (exec_writes h hfb), fun hdraw => ?_, fun hcleared => ?_⟩
  · obtain ⟨x, y, n, rfl⟩ := writers_drawFlag (exec_writes h hdraw)
    exact ⟨(execDrw_drawFlag h).resolve_right hdraw, x, y, n, rfl⟩
  · obtain rfl := writers_clearedFlag (exec_writes h hcleared)
    cases h
    exact ⟨rfl, rfl⟩

/-- Settles O52, by the writers of the stack, of I and of the timers. -/
theorem stackIndexAndTimersHaveOnlyTheirWriters : Obligations.StackIndexAndTimersHaveOnlyTheirWriters := by
  intro i s t h
  refine ⟨fun hstack => writers_stack (exec_writes h (p := .stack) (not_and_or.mpr hstack)),
    fun hi => writers_i (exec_writes h hi), fun hdt => writers_dt (exec_writes h hdt),
    fun hst => writers_st (exec_writes h hst)⟩

end Sys2Proof.Machine
end

section
/-! SUPPORT. The invariant of reachable states along one step: what the fetch leaves, what each effect keeps, and what the
finish of the step closes. -/

namespace Sys2Proof.Machine

/-- An address that CALL may push and RET may pop: even, at most 0xFFE + 2 (R153, R162). -/
def IsReturnAddress (w : Word) : Prop := w.toNat % 2 = 0 ∧ w.toNat ≤ 0x1000

/-- Every stack entry in use is a return address (R153, R162). -/
def State.StackReturns (s : State) : Prop := ∀ k : Fin 16, k.val < s.sp.val → IsReturnAddress s.stack[k]

theorem State.StackReturns.of_eq {s t : State} (h : s.StackReturns) (ht : t.stack = s.stack ∧ t.sp = s.sp) :
    t.StackReturns := by
  obtain ⟨hstack, hsp⟩ := ht
  simpa only [State.StackReturns, hstack, hsp] using h

/-- The part of `State.Inv` that holds in the middle of a step too, before the finish latches the outcome (R136). -/
structure State.Coherent (s : State) : Prop where
  /-- Memory is in canonical form. -/
  memCanonical : s.mem.wf = true
  /-- PC is even (R34, R162). -/
  pcEven : s.pc.toNat % 2 = 0
  /-- PC is at most 0xFFF + 0xFF (R36). -/
  pcBounded : s.pc.toNat ≤ 0x10FE
  /-- The stack entries in use are return addresses. -/
  stackReturns : s.StackReturns

theorem State.Inv.coherent {s : State} (h : s.Inv) : s.Coherent := ⟨h.memCanonical, h.pcEven, h.pcBounded, h.stackEven⟩

/-- The outcome is no part of what `Coherent` speaks of. -/
theorem State.Coherent.setOutcome {s : State} (h : s.Coherent) (o : StepOutcome) : (s.setOutcome o).Coherent :=
  ⟨h.memCanonical, h.pcEven, h.pcBounded, h.stackReturns⟩

/-- The finish of a step from a state without a latch closes the invariant: a latched outcome is the one returned (R136). -/
theorem State.Coherent.inv_finish {s : State} (h : s.Coherent) (hl : s.latch = none) : s.finish.Inv where
  memCanonical := by simpa using h.memCanonical
  pcEven := by simpa using h.pcEven
  pcBounded := by simpa using h.pcBounded
  stackEven := by rw [finish_stack, finish_sp]; exact h.stackReturns
  latchedOutcome f hf := by simpa [finish_latch, hl] using hf

/-! ## The fetch -/

/-- An address of memory is far enough from 65536 for PC + 2 not to wrap (R36). -/
theorem toNat_add_two {pc : Word} (h : pc.toNat ≤ 0x1000) : (pc + 2).toNat = pc.toNat + 2 :=
  BitVec.toNat_add_of_lt (by change pc.toNat + 2 < 65536; omega)

/-- After a fetch that does not fault PC is the address of the next word, which CALL may push, and Fx0A can step back from
it without a wrap (R132, R155, R265). -/
theorem advancePc_pc_isReturnAddress {s : State} (h : s.fetchFault = none) :
    IsReturnAddress s.advancePc.pc ∧ 2 ≤ s.advancePc.pc.toNat := by
  rcases s.fetchFault_cases with ⟨-, e⟩ | ⟨-, -, e⟩ | ⟨hle, heven, -⟩
  · rw [h] at e; cases e
  · rw [h] at e; cases e
  · have hadd : s.advancePc.pc.toNat = s.pc.toNat + 2 := toNat_add_two (hle.trans (by decide))
    exact ⟨⟨by omega, by omega⟩, by omega⟩

theorem State.Coherent.advancePc {s : State} (h : s.Coherent) (hpc : IsReturnAddress s.advancePc.pc) :
    s.advancePc.Coherent :=
  ⟨h.memCanonical, hpc.1, hpc.2.trans (by decide), h.stackReturns⟩

/-! ## The effects -/

@[simp] theorem State.pickKey_pc (s : State) (k : Key) (ks : List Key) : (s.pickKey k ks).2.pc = s.pc := by
  unfold pickKey; split <;> rfl

/-- An instruction that does not raise writes only inside the address space, so memory stays canonical (R72). -/
theorem effect_mem_wf {s : State} {i : Instr} (hm : s.mem.wf = true) (hr : ∀ o, ¬ raises s o i) :
    (effect s i).mem.wf = true := by
  cases i with
  | ldBVx x =>
    have hin : accessInRange s.i.toNat 3 = true := by simpa [raises] using hr
    simp only [effect, State.setMem_mem]
    exact Memory.wf_writeBytes hm (by simpa [accessInRange, decimalDigits] using hin)
  | ldMemVx x =>
    have hin : accessInRange s.i.toNat (x.val + 1) = true := by simpa [raises] using hr
    simp only [effect, State.bumpIndex_mem, State.setMem_mem]
    exact Memory.wf_writeBytes hm (by simpa [accessInRange, length_regBlock] using hin)
  | _ =>
    rw [effect_mem]
    exacts [hm, fun _ => nofun, fun _ => nofun]

/-- CALL pushes a return address and RET moves the cursor down; no other effect touches the stack (R40, R153, R155). -/
theorem effect_stackReturns {s : State} {i : Instr} (hpc : IsReturnAddress s.pc) (hs : s.StackReturns) :
    (effect s i).StackReturns := by
  cases i with
  | callNnn nnn =>
    by_cases hsp : s.sp.val < 16
    · intro k hk
      simp only [effect, dif_pos hsp, State.setPc_stack, State.setStack_stack, State.setPc_sp, State.setStack_sp] at hk ⊢
      rcases eq_or_ne s.sp.val k.val with heq | hne
      · simpa [heq] using hpc
      · simpa [Vector.getElem_set_ne _ _ hne] using hs k (by omega)
    · simpa only [effect, dif_neg hsp] using hs
  | ret =>
    by_cases hsp : 0 < s.sp.val
    · intro k hk
      simp only [effect, dif_pos hsp, State.setPc_stack, State.setStack_stack, State.setPc_sp, State.setStack_sp] at hk ⊢
      exact hs k (by omega)
    · simpa only [effect, dif_neg hsp] using hs
  | _ => exact hs.of_eq (effect_stack s _ (fun _ => nofun) nofun)

/-- PC stays even and bounded where nothing happens to it but a skip (R152). -/
theorem even_bounded_of_skip {pc pc' : Word} (hpc : IsReturnAddress pc) (h : pc' = pc ∨ pc' = pc + 2) :
    pc'.toNat % 2 = 0 ∧ pc'.toNat ≤ 0x10FE := by
  obtain ⟨heven, hle⟩ := hpc
  rcases h with rfl | rfl
  · exact ⟨heven, hle.trans (by decide)⟩
  · rw [toNat_add_two hle]
    omega

/-- Where an instruction that does not raise leaves PC: every transfer goes to an even address, Bnnn's at most 0xFFF + 0xFF,
the others at most 0x1000, a skip adds 2, and a waiting Fx0A steps back (R36, R151, R162). -/
theorem effect_pc_even_bounded {s : State} {i : Instr} (hpc : IsReturnAddress s.pc) (htwo : 2 ≤ s.pc.toNat)
    (hs : s.StackReturns) (hr : ∀ o, ¬ raises s o i) :
    (effect s i).pc.toNat % 2 = 0 ∧ (effect s i).pc.toNat ≤ 0x10FE := by
  have ⟨heven, hle⟩ := hpc
  cases i with
  | jpNnn nnn =>
    have hn : nnn.toNat % 2 = 0 := by simpa [raises] using hr
    simp only [effect, State.setPc_pc, toNat_zext16_addr]
    omega
  | callNnn nnn =>
    by_cases hsp : s.sp.val < 16
    · have hn : nnn.toNat % 2 = 0 := by simpa using fun h => hr _ (.inr ⟨hsp, h, rfl⟩)
      simp only [effect, dif_pos hsp, State.setPc_pc, toNat_zext16_addr]
      omega
    · simp only [effect, dif_neg hsp]
      omega
  | ret =>
    by_cases hsp : 0 < s.sp.val
    · obtain ⟨htop, htopLe⟩ := hs ⟨s.sp.val - 1, by omega⟩ (Nat.sub_lt hsp Nat.one_pos)
      simp only [effect, dif_pos hsp, State.setPc_pc]
      exact ⟨htop, htopLe.trans (by decide)⟩
    · simp only [effect, dif_neg hsp]
      omega
  | jpV0Nnn nnn =>
    have hn : (s.offsetTarget nnn).toNat % 2 = 0 := by simpa [raises] using hr
    have hsum : (s.offsetTarget nnn).toNat = nnn.toNat + (s.getV 0).toNat := by
      rw [State.offsetTarget, BitVec.toNat_add_of_lt (by simp only [toNat_zext16_addr, toNat_zext16_byte]; omega),
        toNat_zext16_addr, toNat_zext16_byte]
    simp only [effect, State.setPc_pc]
    omega
  | ldVxK x =>
    cases hk : s.edges with
    | nil =>
      have hback : (s.pc - 2).toNat = s.pc.toNat - 2 := BitVec.toNat_sub_of_le htwo
      simp only [effect, hk, State.setPc_pc]
      omega
    | cons k ks =>
      simp only [effect, hk, State.setV_pc, State.pickKey_pc]
      omega
  | _ =>
    exact even_bounded_of_skip hpc
      (effect_pc s _ (fun _ => nofun) nofun (fun _ => nofun) (fun _ => nofun) (fun _ => nofun))

/-! ## The step -/

/-- An instruction keeps `Coherent` when it runs right after a fetch. -/
theorem State.Coherent.exec {s t : State} {i : Instr} (h : s.Coherent) (hpc : IsReturnAddress s.pc)
    (htwo : 2 ≤ s.pc.toNat) (ht : Machine.exec i s = .next t) : t.Coherent := by
  rcases exec_next ht with ⟨hr, rfl⟩ | ⟨o, -, rfl⟩
  · obtain ⟨heven, hbound⟩ := effect_pc_even_bounded hpc htwo h.stackReturns hr
    exact State.Coherent.setOutcome
      ⟨effect_mem_wf h.memCanonical hr, heven, hbound, effect_stackReturns hpc h.stackReturns⟩ .ok
  · exact h.setOutcome o

theorem step_inv {s t : State} (h : s.Inv) (ht : step s = .next t) : t.Inv := by
  have hc := h.coherent
  obtain ⟨hl, ⟨f, -, rfl⟩ | ⟨hf, op, -, rfl⟩ | ⟨hf, i, u, -, hu, rfl⟩⟩ := step_next ht
  · exact (hc.setOutcome _).inv_finish hl
  · obtain ⟨hpc, -⟩ := advancePc_pc_isReturnAddress hf
    exact ((hc.advancePc hpc).setOutcome _).inv_finish hl
  · obtain ⟨hpc, htwo⟩ := advancePc_pc_isReturnAddress hf
    exact ((hc.advancePc hpc).exec hpc htwo hu).inv_finish ((exec_frame hu).latch.trans hl)

/-- Settles O15: the fetch, each effect and the finish keep their part of the invariant. -/
theorem stepKeepsTheInvariant : Obligations.StepKeepsTheInvariant := fun _ _ => step_inv

/-- Settles O16: at reset PC is 0x200, and nothing is stored, pushed or latched. -/
theorem resetMeetsTheInvariant : Obligations.ResetMeetsTheInvariant where
  memCanonical := rfl
  pcEven := rfl
  pcBounded := by decide
  stackEven k hk := absurd hk (Nat.not_lt_zero _)
  latchedOutcome _ hf := nomatch hf

/-- Settles O19: no step starts from a latched state, and no other transaction on an engine writes the latch. -/
theorem latchIsKeptUntilConstruction : Obligations.LatchIsKeptUntilConstruction := by
  intro b s t o r f hl ht
  cases o with
  | constructMemory any => cases ht
  | load buffer => cases ht
  | constructEngine any => cases ht
  | step =>
    rcases stepReply_cases s with ⟨u, hu, -⟩ | ⟨g, -, e⟩
    · rw [step_latched hl] at hu; cases hu
    · have hreply : stepReply s = .next (.engine t, r) := ht
      rw [e] at hreply; cases hreply; exact hl
  | setKeys k => cases ht; exact hl
  | tickTimers => cases ht; exact hl
  | clearDrawFlag => cases ht; exact hl
  | clearClearedFlag => cases ht; exact hl
  | readSnapshot => cases ht; exact hl

end Sys2Proof.Machine
end

section
/-! SUPPORT. Memory as instructions and the host change it: which instruction writes it, what a register dump leaves for a
later fetch, what a ROM load copies, and which outcome only a fetch raises. -/

namespace Sys2Proof.Machine

/-! ## The fetch -/

/-- An AddressFault of the fetch is raised by no instruction (R305). -/
theorem raises_ne_fetchFault {s : State} {o : StepOutcome} {i : Instr} (h : raises s o i) (v : Word) :
    o ≠ .fatal (.addressFault .fetchRange v) ∧ o ≠ .fatal (.addressFault .fetchMisaligned v) := by
  cases i with
  | sysNnn _ => subst h; exact ⟨nofun, nofun⟩
  | callNnn _ => obtain ⟨-, rfl⟩ | ⟨-, -, rfl⟩ := h <;> exact ⟨nofun, nofun⟩
  | ret | jpNnn _ | jpV0Nnn _ | drwVxVyN _ _ _ | skpVx _ | sknpVx _ | ldBVx _ | ldMemVx _ | ldVxMem _ =>
    obtain ⟨-, rfl⟩ := h
    exact ⟨nofun, nofun⟩
  | _ => exact h.elim

theorem exec_ne_fetchFault {i : Instr} {s t : State} (h : exec i s = .next t) (v : Word) :
    t.outcome ≠ .fatal (.addressFault .fetchRange v) ∧ t.outcome ≠ .fatal (.addressFault .fetchMisaligned v) := by
  rcases exec_next h with ⟨-, rfl⟩ | ⟨o, hr, rfl⟩
  · exact ⟨nofun, nofun⟩
  · exact raises_ne_fetchFault hr v

/-- From an even PC the fetch check reports only a PC beyond memory (R131). -/
theorem fetchFault_of_even {s : State} {f : FatalOutcome} (heven : s.pc.toNat % 2 = 0) (h : s.fetchFault = some f) :
    f = .addressFault .fetchRange s.pc := by
  rcases s.fetchFault_cases with ⟨-, e⟩ | ⟨-, hodd, -⟩ | ⟨-, -, e⟩
  · exact Option.some.inj (h.symm.trans e)
  · omega
  · rw [h] at e; cases e

/-- Settles O18: the invariant's PC is even, and no instruction raises a fault of the fetch. -/
theorem misalignedFetchIsUnreachable : Obligations.MisalignedFetchIsUnreachable := by
  intro s t hinv ht v
  obtain ⟨-, ⟨f, hf, rfl⟩ | ⟨-, op, -, rfl⟩ | ⟨-, i, u, -, hu, rfl⟩⟩ := step_next ht
  · obtain rfl := fetchFault_of_even hinv.pcEven hf
    rw [State.finish_outcome]
    exact nofun
  · rw [State.finish_outcome]
    exact nofun
  · rw [State.finish_outcome]
    exact (exec_ne_fetchFault hu v).2

/-! ## The writers of memory -/

theorem writers_memory {p : Params} {i : Instr} (h : .memory ∈ partsWritten p i) :
    (∃ x, i = .ldBVx x) ∨ ∃ x, i = .ldMemVx x := by
  cases i with
  | ldBVx x => exact .inl ⟨x, rfl⟩
  | ldMemVx x => exact .inr ⟨x, rfl⟩
  | _ => simp [partsWritten] at h

/-- Settles O51, by the writers of memory. -/
theorem onlyStoresChangeMemory : Obligations.OnlyStoresChangeMemory := by
  intro i s t h hb hd
  refine (exec_frame h).others .memory fun hmem => ?_
  obtain ⟨x, rfl⟩ | ⟨x, rfl⟩ := writers_memory hmem
  · exact hb x rfl
  · exact hd x rfl

/-! ## Stored code -/

theorem getD_regBlock (s : State) {x j : Reg} (h : j ≤ x) : (s.regBlock x).getD j.val 0 = s.getV j := by
  have hj : j.val < x.val + 1 := Nat.lt_succ_of_le h
  simp [State.regBlock, State.getV, List.getD_eq_getElem?_getD, hj]

/-- After a register dump that completes, the block stands from I on (R215). -/
theorem execLdMemVx_read {x j : Reg} {s t : State} (hm : s.mem.wf = true) (h : exec (.ldMemVx x) s = .next t)
    (hok : t.outcome = .ok) (hj : j ≤ x) : t.mem.read (s.i.toNat + j.val) = s.getV j := by
  rcases exec_next h with ⟨hr, rfl⟩ | ⟨o, hr, rfl⟩
  · have hin : accessInRange s.i.toNat (x.val + 1) = true := by simpa [raises] using hr
    have hfits : s.i.toNat + (s.regBlock x).length ≤ memSize := by simpa [accessInRange, length_regBlock] using hin
    have hlt : j.val < (s.regBlock x).length := by rw [length_regBlock]; exact Nat.lt_succ_of_le hj
    simp only [effect, State.setOutcome_mem, State.bumpIndex_mem, State.setMem_mem]
    rw [Memory.read_writeBytes hm hfits, if_pos (by omega), Nat.add_sub_cancel_left, getD_regBlock s hj]
  · cases hok
    exact absurd hr raises_ne_ok

/-- The high byte of an opcode stands first (R74). -/
theorem toNat_wordOfBytes (hi lo : Byte) : (wordOfBytes hi lo).toNat = hi.toNat * 256 + lo.toNat := by
  rw [wordOfBytes, BitVec.toNat_ofNat]
  omega

/-- Settles O42: the fetch reads the first two bytes of the dumped block. -/
theorem storedCodeIsFetched : Obligations.StoredCodeIsFetched := by
  intro x s t hm hx h hok u hmem hpc
  have hhigh : t.mem.read s.i.toNat = s.getV 0 := execLdMemVx_read hm h hok (Fin.zero_le x)
  have hlow : t.mem.read (s.i.toNat + 1) = s.getV 1 := execLdMemVx_read (j := 1) hm h hok hx
  rw [State.fetchWord, hmem, hpc, hhigh, hlow, toNat_wordOfBytes]

/-! ## The ROM load -/

theorem load_of_le {m : Memory} {buffer : List Byte} (h : buffer.length ≤ 3584) :
    load m buffer = (.loadOk, m.writeBytes 512 buffer) := if_pos h

theorem load_of_lt {m : Memory} {buffer : List Byte} (h : 3584 < buffer.length) :
    load m buffer = (.romTooLarge, m) := if_neg (Nat.not_le_of_gt h)

/-- Settles O54: a ROM that fits is one store of its bytes at 512, a longer one no store. -/
theorem loadCopiesTheRomOrChangesNothing : Obligations.LoadCopiesTheRomOrChangesNothing := by
  intro m buffer hm
  refine ⟨fun hle => ?_, fun hlt => by rw [load_of_lt hlt]; exact ⟨rfl, rfl⟩⟩
  have hfits : 512 + buffer.length ≤ memSize := Nat.add_le_add_left hle 512
  rw [load_of_le hle]
  refine ⟨rfl, fun j hj => ?_, fun a ha => ?_⟩
  · rw [Memory.read_writeBytes hm hfits, if_pos (by omega), Nat.add_sub_cancel_left, List.getD_eq_getElem _ _ hj]
  · rw [Memory.read_writeBytes hm hfits, if_neg (by omega)]

/-- Settles O55: `load` is an operation of the boot, refused on a running engine and before memory exists (R85, R320). -/
theorem loadIsPartOfBootOnly : Obligations.LoadIsPartOfBootOnly := by
  intro b buffer
  have hload : ∀ any, HostOp.load buffer ≠ .constructMemory any := fun _ => nofun
  exact ⟨fun s => transact_engine b s hload, transact_empty b hload,
    fun m n => ⟨(load m buffer).2, (load m buffer).1, transact_memory b m n hload⟩⟩

end Sys2Proof.Machine
end

section
/-! SUPPORT. The decoder from the side of the word: a word is rebuilt from its fields, every verdict of the decoder is canonical,
which words have no instruction, and the two-stage decode as the search in the opcode map. -/

namespace Sys2Proof

/-! ## The encoder on every instruction -/

/-- Every well-formed instruction is decoded from its word (R104). -/
theorem decodeWord_encode : ∀ i : Instr, Laws.RoundTrip.Statement i
  | .sysNnn nnn => Laws.RoundTrip.sysNnn nnn
  | .cls => Laws.RoundTrip.cls
  | .ret => Laws.RoundTrip.ret
  | .jpNnn nnn => Laws.RoundTrip.jpNnn nnn
  | .callNnn nnn => Laws.RoundTrip.callNnn nnn
  | .seVxNn x nn => Laws.RoundTrip.seVxNn x nn
  | .sneVxNn x nn => Laws.RoundTrip.sneVxNn x nn
  | .seVxVy x y => Laws.RoundTrip.seVxVy x y
  | .ldVxNn x nn => Laws.RoundTrip.ldVxNn x nn
  | .addVxNn x nn => Laws.RoundTrip.addVxNn x nn
  | .ldVxVy x y => Laws.RoundTrip.ldVxVy x y
  | .orVxVy x y => Laws.RoundTrip.orVxVy x y
  | .andVxVy x y => Laws.RoundTrip.andVxVy x y
  | .xorVxVy x y => Laws.RoundTrip.xorVxVy x y
  | .addVxVy x y => Laws.RoundTrip.addVxVy x y
  | .subVxVy x y => Laws.RoundTrip.subVxVy x y
  | .shrVxVy x y => Laws.RoundTrip.shrVxVy x y
  | .subnVxVy x y => Laws.RoundTrip.subnVxVy x y
  | .shlVxVy x y => Laws.RoundTrip.shlVxVy x y
  | .sneVxVy x y => Laws.RoundTrip.sneVxVy x y
  | .ldINnn nnn => Laws.RoundTrip.ldINnn nnn
  | .jpV0Nnn nnn => Laws.RoundTrip.jpV0Nnn nnn
  | .rndVxNn x nn => Laws.RoundTrip.rndVxNn x nn
  | .drwVxVyN x y n => Laws.RoundTrip.drwVxVyN x y n
  | .skpVx x => Laws.RoundTrip.skpVx x
  | .sknpVx x => Laws.RoundTrip.sknpVx x
  | .ldVxDt x => Laws.RoundTrip.ldVxDt x
  | .ldVxK x => Laws.RoundTrip.ldVxK x
  | .ldDtVx x => Laws.RoundTrip.ldDtVx x
  | .ldStVx x => Laws.RoundTrip.ldStVx x
  | .addIVx x => Laws.RoundTrip.addIVx x
  | .ldFVx x => Laws.RoundTrip.ldFVx x
  | .ldBVx x => Laws.RoundTrip.ldBVx x
  | .ldMemVx x => Laws.RoundTrip.ldMemVx x
  | .ldVxMem x => Laws.RoundTrip.ldVxMem x

/-- The two bytes of a word, high byte first, decode as the word does (R74, R100). -/
theorem decodeBytes_of_decodeWord {op : Word} {i : Instr} (h : decodeWord op = .instr i) (rest : List Byte) :
    decodeBytes (highByte op :: lowByte op :: rest) = .instr i rest := by
  rw [decodeBytes, wordOfBytes_bytes, h]

/-! ## A word is its fields, format by format -/

section Formats
variable {op : Word} {t : Nat} (ht : fieldT op = t)
include ht

theorem encodeNNN_fields : encodeNNN t (fieldNNN op) = op := by
  subst ht
  apply BitVec.eq_of_toNat_eq
  simp only [encodeNNN, fieldT, fieldNNN, BitVec.toNat_ofNat]
  omega

theorem encodeXNN_fields : encodeXNN t (fieldX op) (fieldNN op) = op := by
  subst ht
  apply BitVec.eq_of_toNat_eq
  simp only [encodeXNN, fieldT, fieldX, fieldNN, BitVec.toNat_ofNat, Fin.val_ofNat]
  omega

theorem encodeXYN_fields {n : Nat} (hn : (fieldN op).val = n) : encodeXYN t (fieldX op) (fieldY op) n = op := by
  subst ht hn
  apply BitVec.eq_of_toNat_eq
  simp only [encodeXYN, fieldT, fieldX, fieldY, fieldN, BitVec.toNat_ofNat, Fin.val_ofNat]
  omega

theorem encodeX_fields {sub : Nat} (hs : (fieldNN op).toNat = sub) : encodeX t (fieldX op) sub = op := by
  subst hs
  exact encodeXNN_fields ht

end Formats

/-! ## Every verdict is canonical -/

/-- A verdict on `op` is canonical when its instruction is well formed and `op` is its word, or when it refuses `op` itself. -/
def Decoded.CanonicalFor (op : Word) : Decoded → Prop
  | .instr i => i.wellFormed = true ∧ encode i = op
  | .unsupported w => w = op

section Canonical
variable {op : Word}

/-- Of the words with tag 0 only CLS and RET have the low 12 bits that a well-formed SYS may not have (R103, R161). -/
theorem wellFormed_sysNnn_fieldNNN (ht : fieldT op = 0x0) (hcls : op ≠ 0x00E0#16) (hret : op ≠ 0x00EE#16) :
    (Instr.sysNnn (fieldNNN op)).wellFormed = true := by
  have hword := encodeNNN_fields ht
  simp only [Instr.wellFormed, Bool.and_eq_true, bne_iff_ne]
  constructor
  · intro e
    rw [e] at hword
    exact hcls (hword.symm.trans (by decide))
  · intro e
    rw [e] at hword
    exact hret (hword.symm.trans (by decide))

theorem decodeTag0_canonical (ht : fieldT op = 0x0) : (decodeTag0 op).CanonicalFor op := by
  by_cases hcls : op = 0x00E0#16
  · subst hcls
    exact ⟨rfl, rfl⟩
  · by_cases hret : op = 0x00EE#16
    · subst hret
      exact ⟨rfl, rfl⟩
    · rw [decodeTag0, if_neg hcls, if_neg hret]
      exact ⟨wellFormed_sysNnn_fieldNNN ht hcls hret, encodeNNN_fields ht⟩

theorem decodeTag5_canonical (ht : fieldT op = 0x5) : (decodeTag5 op).CanonicalFor op := by
  unfold decodeTag5
  split
  · exact ⟨rfl, encodeXYN_fields ht ‹_›⟩
  · rfl

theorem decodeTag8_canonical (ht : fieldT op = 0x8) : (decodeTag8 op).CanonicalFor op := by
  unfold decodeTag8
  split
  case h_10 => rfl
  all_goals exact ⟨rfl, encodeXYN_fields ht ‹_›⟩

theorem decodeTag9_canonical (ht : fieldT op = 0x9) : (decodeTag9 op).CanonicalFor op := by
  unfold decodeTag9
  split
  · exact ⟨rfl, encodeXYN_fields ht ‹_›⟩
  · rfl

theorem decodeTagE_canonical (ht : fieldT op = 0xE) : (decodeTagE op).CanonicalFor op := by
  unfold decodeTagE
  split
  case h_3 => rfl
  all_goals exact ⟨rfl, encodeX_fields ht ‹_›⟩

theorem decodeTagF_canonical (ht : fieldT op = 0xF) : (decodeTagF op).CanonicalFor op := by
  unfold decodeTagF
  split
  case h_10 => rfl
  all_goals exact ⟨rfl, encodeX_fields ht ‹_›⟩

end Canonical

theorem decodeWord_canonical (op : Word) : (decodeWord op).CanonicalFor op := by
  unfold decodeWord
  split
  case h_1 ht => exact decodeTag0_canonical ht
  case h_2 ht | h_3 ht | h_11 ht | h_12 ht => exact ⟨rfl, encodeNNN_fields ht⟩
  case h_4 ht | h_5 ht | h_7 ht | h_8 ht | h_13 ht => exact ⟨rfl, encodeXNN_fields ht⟩
  case h_6 ht => exact decodeTag5_canonical ht
  case h_9 ht => exact decodeTag8_canonical ht
  case h_10 ht => exact decodeTag9_canonical ht
  case h_14 ht => exact ⟨rfl, encodeXYN_fields ht rfl⟩
  case h_15 ht => exact decodeTagE_canonical ht
  case h_16 ht => exact decodeTagF_canonical ht
  case h_17 => rfl

/-! ## The words without an instruction -/

theorem fieldT_lt (op : Word) : fieldT op < 16 := by
  rw [fieldT]
  omega

@[simp] theorem fieldN_val (op : Word) : (fieldN op).val = op.toNat % 16 := rfl

@[simp] theorem fieldNN_toNat (op : Word) : (fieldNN op).toNat = op.toNat % 256 := by
  simp [fieldNN]

section Unsupported
variable (op : Word)

theorem decodeTag0_ne_unsupported : decodeTag0 op ≠ .unsupported op := by
  unfold decodeTag0
  split_ifs <;> exact nofun

theorem decodeTag5_unsupported_iff : decodeTag5 op = .unsupported op ↔ op.toNat % 16 ≠ 0 := by
  unfold decodeTag5
  split <;> simp_all

theorem decodeTag8_unsupported_iff :
    decodeTag8 op = .unsupported op ↔ op.toNat % 16 ∈ [0x8, 0x9, 0xA, 0xB, 0xC, 0xD, 0xF] := by
  have hn := (fieldN op).isLt
  unfold decodeTag8
  split
  case h_10 =>
    simp only [fieldN_val, imp_false, List.mem_cons, List.not_mem_nil, true_iff] at *
    omega
  all_goals simp_all

theorem decodeTag9_unsupported_iff : decodeTag9 op = .unsupported op ↔ op.toNat % 16 ≠ 0 := by
  unfold decodeTag9
  split <;> simp_all

theorem decodeTagE_unsupported_iff : decodeTagE op = .unsupported op ↔ op.toNat % 256 ∉ [0x9E, 0xA1] := by
  unfold decodeTagE
  split <;> simp_all

theorem decodeTagF_unsupported_iff : decodeTagF op = .unsupported op ↔
    op.toNat % 256 ∉ [0x07, 0x0A, 0x15, 0x18, 0x1E, 0x29, 0x33, 0x55, 0x65] := by
  unfold decodeTagF
  split <;> simp_all

end Unsupported

/-! ## The masks of the opcode map -/

/-- What a mask of the tag and the low `k` bits keeps of a word. -/
theorem toNat_and_tagMask (op : Word) {k : Nat} (hk : k ≤ 12) :
    (op &&& BitVec.ofNat 16 (0xF000 + (2 ^ k - 1))).toNat = op.toNat % 2 ^ k + fieldT op * 4096 := by
  have hpow : 2 ^ k ≤ 4096 := Nat.pow_le_pow_right (by decide) hk
  have hpos : 0 < 2 ^ k := Nat.two_pow_pos k
  have hmask : (BitVec.ofNat 16 (0xF000 + (2 ^ k - 1))).toNat = 0xF000 + (2 ^ k - 1) := by
    rw [BitVec.toNat_ofNat]
    omega
  have htop : (op.toNat &&& (0xF000 + (2 ^ k - 1))) / 2 ^ 12 = fieldT op := by
    have h15 : (0xF000 + (2 ^ k - 1)) / 2 ^ 12 = 2 ^ 4 - 1 := by omega
    rw [Nat.and_div_two_pow, h15, Nat.and_two_pow_sub_one_eq_mod]
    exact Nat.mod_eq_of_lt (fieldT_lt op)
  have hlow : (op.toNat &&& (0xF000 + (2 ^ k - 1))) % 2 ^ 12 = op.toNat % 2 ^ k := by
    have hrest : (0xF000 + (2 ^ k - 1)) % 2 ^ 12 = 2 ^ k - 1 := by omega
    rw [Nat.and_mod_two_pow, hrest, Nat.and_two_pow_sub_one_eq_mod, Nat.mod_mod_of_dvd _ (Nat.pow_dvd_pow 2 hk)]
  rw [BitVec.toNat_and, hmask, ← htop, ← hlow]
  exact (Nat.mod_add_div' _ _).symm

/-- A row with a mask of the tag and the low `k` bits compares these with its value. -/
theorem matchesWord_eq_decide {mask value : Word} (build : Word → Instr) (op : Word) (k : Nat) (hk : k ≤ 12)
    (hmask : mask = BitVec.ofNat 16 (0xF000 + (2 ^ k - 1))) :
    OpcodeRow.matchesWord ⟨mask, value, build⟩ op = decide (op.toNat % 2 ^ k + fieldT op * 4096 = value.toNat) := by
  simp only [OpcodeRow.matchesWord, hmask, ← BitVec.toNat_inj, toNat_and_tagMask op hk]

section Masks
variable (value : Word) (build : Word → Instr) (op : Word)

@[simp] theorem matchesWord_F000 :
    OpcodeRow.matchesWord ⟨0xF000#16, value, build⟩ op = decide (fieldT op * 4096 = value.toNat) := by
  refine (matchesWord_eq_decide build op 0 (by decide) rfl).trans ?_
  rw [Nat.pow_zero, Nat.mod_one, Nat.zero_add]

@[simp] theorem matchesWord_F00F : OpcodeRow.matchesWord ⟨0xF00F#16, value, build⟩ op =
    decide (op.toNat % 16 + fieldT op * 4096 = value.toNat) :=
  matchesWord_eq_decide build op 4 (by decide) rfl

@[simp] theorem matchesWord_F0FF : OpcodeRow.matchesWord ⟨0xF0FF#16, value, build⟩ op =
    decide (op.toNat % 256 + fieldT op * 4096 = value.toNat) :=
  matchesWord_eq_decide build op 8 (by decide) rfl

@[simp] theorem matchesWord_FFFF : OpcodeRow.matchesWord ⟨0xFFFF#16, value, build⟩ op = decide (op = value) := by
  have hall : op &&& 0xFFFF#16 = op := BitVec.and_allOnes
  simp only [OpcodeRow.matchesWord, hall]

end Masks

/-! ## The first stage: the rows of the word's tag -/

/-- The answer of the first of some rows that matches. -/
def firstMatch (rows : List OpcodeRow) (op : Word) : Decoded :=
  match rows.find? (fun r => r.matchesWord op) with
  | some r => .instr (r.build op)
  | none => .unsupported op

@[simp] theorem firstMatch_nil (op : Word) : firstMatch [] op = .unsupported op := rfl

@[simp] theorem firstMatch_cons (r : OpcodeRow) (rows : List OpcodeRow) (op : Word) :
    firstMatch (r :: rows) op = if r.matchesWord op then .instr (r.build op) else firstMatch rows op := by
  cases h : r.matchesWord op <;> simp [firstMatch, h]

/-- The rows of the opcode map with a tag, in the order of the map. -/
def rowsOfTag (t : Nat) : List OpcodeRow := opcodeRows.filter (fun r => fieldT r.value = t)

/-- The tag is in what the mask F000 keeps. -/
theorem fieldT_and_F000 (op : Word) : fieldT (op &&& 0xF000#16) = fieldT op := by
  have hand : (op &&& 0xF000#16).toNat = op.toNat % 2 ^ 0 + fieldT op * 4096 := toNat_and_tagMask op (k := 0) (by decide)
  rw [fieldT, hand]
  omega

theorem opcodeRows_mask_tag : ∀ r ∈ opcodeRows, r.mask &&& 0xF000#16 = 0xF000#16 := by decide

/-- A row of the map matches words with the tag of its value only. -/
theorem fieldT_value_of_matchesWord {r : OpcodeRow} (hr : r ∈ opcodeRows) {op : Word} (h : r.matchesWord op = true) :
    fieldT r.value = fieldT op := by
  have hv : op &&& r.mask = r.value := of_decide_eq_true h
  rw [← hv, ← fieldT_and_F000, BitVec.and_assoc, opcodeRows_mask_tag r hr, fieldT_and_F000]

/-- The search in the whole map is the search among the rows of the word's tag (R103). -/
theorem decodeByRows_eq_firstMatch {op : Word} {t : Nat} (ht : fieldT op = t) :
    decodeByRows op = firstMatch (rowsOfTag t) op := by
  have hfind : (rowsOfTag t).find? (fun r => r.matchesWord op) = opcodeRows.find? (fun r => r.matchesWord op) := by
    rw [rowsOfTag, List.find?_filter]
    refine List.find?_congr fun r hr => ?_
    rw [Bool.eq_iff_iff]
    simpa using fun h => (fieldT_value_of_matchesWord hr h).trans ht
  rw [firstMatch, hfind]
  rfl

/-! ## The second stage: the row within a tag -/

section Tags
variable {op : Word}

/-- A tag with one row, whose mask is the tag alone, has its instruction for every word. -/
theorem decodeByRows_of_tagRow {t : Nat} (ht : fieldT op = t) {build : Word → Instr}
    (hrow : rowsOfTag t = [⟨0xF000#16, BitVec.ofNat 16 (t * 4096), build⟩]) : decodeByRows op = .instr (build op) := by
  have hlt : t < 16 := ht ▸ fieldT_lt op
  have hvalue : t * 4096 % 65536 = t * 4096 := Nat.mod_eq_of_lt (by omega)
  simp [decodeByRows_eq_firstMatch ht, hrow, ht, hvalue]

theorem rowsOfTag_0 : rowsOfTag 0x0 = opcodeRowsLow.take 3 := rfl

theorem rowsOfTag_5 : rowsOfTag 0x5 = (opcodeRowsLow.drop 7).take 1 := rfl

theorem rowsOfTag_8 : rowsOfTag 0x8 = opcodeRowsAlu := rfl

theorem rowsOfTag_9 : rowsOfTag 0x9 = opcodeRowsHigh.take 1 := rfl

theorem rowsOfTag_E : rowsOfTag 0xE = (opcodeRowsHigh.drop 5).take 2 := rfl

theorem rowsOfTag_F : rowsOfTag 0xF = opcodeRowsHigh.drop 7 := rfl

theorem decodeByRows_of_tag0 (ht : fieldT op = 0x0) : decodeByRows op = decodeTag0 op := by
  simp [decodeByRows_eq_firstMatch ht, rowsOfTag_0, opcodeRowsLow, decodeTag0, ht]

theorem decodeByRows_of_tag5 (ht : fieldT op = 0x5) : decodeByRows op = decodeTag5 op := by
  simp only [decodeByRows_eq_firstMatch ht, rowsOfTag_5, opcodeRowsLow, decodeTag5]
  split <;> simp_all

theorem decodeByRows_of_tag8 (ht : fieldT op = 0x8) : decodeByRows op = decodeTag8 op := by
  simp only [decodeByRows_eq_firstMatch ht, rowsOfTag_8, opcodeRowsAlu, decodeTag8]
  split <;> simp_all

theorem decodeByRows_of_tag9 (ht : fieldT op = 0x9) : decodeByRows op = decodeTag9 op := by
  simp only [decodeByRows_eq_firstMatch ht, rowsOfTag_9, opcodeRowsHigh, decodeTag9]
  split <;> simp_all

theorem decodeByRows_of_tagE (ht : fieldT op = 0xE) : decodeByRows op = decodeTagE op := by
  simp only [decodeByRows_eq_firstMatch ht, rowsOfTag_E, opcodeRowsHigh, decodeTagE]
  split <;> simp_all

theorem decodeByRows_of_tagF (ht : fieldT op = 0xF) : decodeByRows op = decodeTagF op := by
  simp only [decodeByRows_eq_firstMatch ht, rowsOfTag_F, opcodeRowsHigh, decodeTagF]
  split <;> simp_all

end Tags

/-! ## The statements -/

/-- Settles O1: the round trip of every instruction, and the order of the two bytes. -/
theorem decodeOfEncodeIsTheInstruction : Obligations.DecodeOfEncodeIsTheInstruction :=
  fun i hwf => ⟨decodeWord_encode i hwf, decodeBytes_of_decodeWord (decodeWord_encode i hwf)⟩

/-- Settles O2: every verdict of the decoder is canonical. -/
theorem encodeOfDecodeIsTheWord : Obligations.EncodeOfDecodeIsTheWord := by
  intro op i h
  have hcanonical := decodeWord_canonical op
  rwa [h] at hcanonical

/-- Settles O3, tag by tag: only five tags have words without an instruction. -/
theorem unsupportedWordsAreThoseListed : Obligations.UnsupportedWordsAreThoseListed := by
  intro op t n nn
  have htag : fieldT op = t := rfl
  have hlt : t < 16 := fieldT_lt op
  clear_value t
  unfold decodeWord
  rw [htag]
  split
  case h_1 => simp [decodeTag0_ne_unsupported]
  case h_6 => simp [n, decodeTag5_unsupported_iff]
  case h_9 => simp [n, decodeTag8_unsupported_iff]
  case h_10 => simp [n, decodeTag9_unsupported_iff]
  case h_15 => simp [nn, decodeTagE_unsupported_iff]
  case h_16 => simp [nn, decodeTagF_unsupported_iff]
  case h_17 =>
    simp only [imp_false] at *
    omega
  all_goals simp

/-- Settles O4, tag by tag: the rows of a tag are searched as its second stage decides. -/
theorem decodeAgreesWithTheOpcodeMap : Obligations.DecodeAgreesWithTheOpcodeMap := by
  intro op
  have hlt := fieldT_lt op
  unfold decodeWord
  split
  case h_1 ht => exact (decodeByRows_of_tag0 ht).symm
  case h_6 ht => exact (decodeByRows_of_tag5 ht).symm
  case h_9 ht => exact (decodeByRows_of_tag8 ht).symm
  case h_10 ht => exact (decodeByRows_of_tag9 ht).symm
  case h_15 ht => exact (decodeByRows_of_tagE ht).symm
  case h_16 ht => exact (decodeByRows_of_tagF ht).symm
  case h_17 =>
    simp only [imp_false] at *
    omega
  case h_2 ht | h_3 ht | h_4 ht | h_5 ht | h_7 ht | h_8 ht | h_11 ht | h_12 ht | h_13 ht | h_14 ht =>
    exact (decodeByRows_of_tagRow ht rfl).symm

/-- Settles O5: the words are closed, and each decodes by computation. -/
theorem exampleWordsDecode : Obligations.ExampleWordsDecode := by
  unfold Obligations.ExampleWordsDecode
  decide

end Sys2Proof
end

section
/-! SUPPORT. The step cycle from the side of its caller: when the fetch check faults, what the two fetched bytes decode to, what
the finish writes, and from these the statements about one step. -/

namespace Sys2Proof.Machine

/-! ## The fetch -/

/-- A PC beyond the last word of memory is reported first (R131). -/
theorem fetchFault_of_beyond {s : State} (h : 0xFFE < s.pc.toNat) :
    s.fetchFault = some (.addressFault .fetchRange s.pc) := if_pos h

/-- An odd PC within memory is reported as misaligned (R131). -/
theorem fetchFault_of_odd {s : State} (hle : s.pc.toNat ≤ 0xFFE) (hodd : s.pc.toNat % 2 = 1) :
    s.fetchFault = some (.addressFault .fetchMisaligned s.pc) := (if_neg hle.not_gt).trans (if_pos hodd)

/-- An even PC within memory passes the check (R131). -/
theorem fetchFault_eq_none {s : State} (hle : s.pc.toNat ≤ 0xFFE) (heven : s.pc.toNat % 2 = 0) : s.fetchFault = none :=
  (if_neg hle.not_gt).trans (if_neg (heven ▸ Nat.zero_ne_one))

/-! ## The decoder on the fetched bytes -/

theorem decodeWord_of_decodeBytes_instr {hi lo : Byte} {i : Instr} {rest rest' : List Byte}
    (h : decodeBytes (hi :: lo :: rest) = .instr i rest') : decodeWord (wordOfBytes hi lo) = .instr i := by
  rw [decodeBytes] at h
  cases hd : decodeWord (wordOfBytes hi lo) with
  | instr j => rw [hd] at h; cases h; rfl
  | unsupported op => rw [hd] at h; cases h

theorem decodeWord_of_decodeBytes_unsupported {hi lo : Byte} {op : Word} {rest rest' : List Byte}
    (h : decodeBytes (hi :: lo :: rest) = .unsupported op rest') : decodeWord (wordOfBytes hi lo) = .unsupported op := by
  rw [decodeBytes] at h
  cases hd : decodeWord (wordOfBytes hi lo) with
  | instr j => rw [hd] at h; cases h
  | unsupported op' => rw [hd] at h; cases h; rfl

/-- A word without an instruction is reported as it stands (R104). -/
theorem eq_of_decodeWord_unsupported {w op : Word} (h : decodeWord w = .unsupported op) : op = w := by
  have hcanonical := decodeWord_canonical w
  rwa [h] at hcanonical

/-! ## The instruction and the finish -/

/-- No instruction faults or is refused (R300). -/
theorem exec_answers (i : Instr) (s : State) : ∃ t, exec i s = .next t := by
  rcases exec_cases i s with ⟨-, e⟩ | ⟨o, -, e⟩ <;> exact ⟨_, e⟩

/-- A jump to an even address goes there and completes (R154). -/
theorem execJp_of_even {nnn : Addr12} (s : State) (heven : nnn.toNat % 2 = 0) :
    exec (.jpNnn nnn) s = .next ((s.setPc (zext16 nnn)).setOutcome .ok) := by
  rcases s.jumpTo_cases (zext16 nnn) with ⟨-, e⟩ | ⟨hodd, -⟩
  · exact e
  · rw [toNat_zext16_addr] at hodd; omega

/-- From a state without a latch, the finish latches exactly a fatal outcome (R136). -/
theorem State.finish_latch_eq_some_iff {s : State} (hl : s.latch = none) (f : FatalOutcome) :
    s.finish.latch = some f ↔ s.finish.outcome = .fatal f := by
  simp [State.finish_latch, hl]

/-- All that the finish writes (R136), as a record. -/
theorem State.finish_eq (s : State) :
    s.finish = { s with prevKeys := s.keys, latch := s.outcome.fatal?.or s.latch } := by
  unfold State.finish
  cases s.outcome.fatal? <;> rfl

/-! ## The statements -/

/-- Settles O10: each way a step can end is a finish, of a state with the KEYS, the parameters and the empty latch of before. -/
theorem everyStepFinishes : Obligations.EveryStepFinishes := by
  intro s t ht
  have finished {u : State} (hkeys : u.keys = s.keys) (hparams : u.params = s.params) (hl : u.latch = none) :
      u.finish.prevKeys = s.keys ∧ u.finish.keys = s.keys ∧ u.finish.params = s.params ∧
        ∀ f, u.finish.latch = some f ↔ u.finish.outcome = .fatal f :=
    ⟨by simpa using hkeys, by simpa using hkeys, by simpa using hparams, State.finish_latch_eq_some_iff hl⟩
  obtain ⟨hl, ⟨f, -, rfl⟩ | ⟨-, op, -, rfl⟩ | ⟨-, i, u, -, hu, rfl⟩⟩ := step_next ht
  · exact finished rfl rfl hl
  · exact finished rfl rfl hl
  · have hframe := exec_frame hu
    exact finished hframe.keys hframe.params (hframe.latch.trans hl)

/-- Settles O6: the instruction answers a next state, and the finish of it is the record of R136. -/
theorem stepRunsTheDecodedInstruction : Obligations.StepRunsTheDecodedInstruction := by
  intro s i hl hle heven hbytes
  obtain ⟨t, ht⟩ := exec_answers i { s with pc := s.pc + 2 }
  have hstep : step s = .next t.finish :=
    step_instr hl (fetchFault_eq_none hle heven) (decodeWord_of_decodeBytes_instr hbytes) ht
  rw [hstep, ht, State.finish_eq]
  dsimp only
  cases t.outcome <;> rfl

/-- Settles O7: the step stops with the latched outcome, and the host's reply is built from that stop. -/
theorem latchedStepReturnsTheLatchedOutcome : Obligations.LatchedStepReturnsTheLatchedOutcome := by
  intro s f b hl
  have hstep := step_latched hl
  refine ⟨hstep, ?_⟩
  rw [transact_engine b s (o := .step) nofun, runtimeOp, stepReply, hstep]

/-- Settles O8: the fetch check decides the fault, and the finish latches it. -/
theorem fetchFaultsAreReportedAndLatched : Obligations.FetchFaultsAreReportedAndLatched := fun _ hl =>
  ⟨fun h => step_fetchFault hl (fetchFault_of_beyond h), fun hle hodd => step_fetchFault hl (fetchFault_of_odd hle hodd)⟩

/-- Settles O9: the reported opcode is the fetched word, and the finish finds nothing to latch. -/
theorem unsupportedWordIsReportedAndPassed : Obligations.UnsupportedWordIsReportedAndPassed := by
  intro s op hl hle heven hbytes
  have hd := decodeWord_of_decodeBytes_unsupported hbytes
  constructor
  · rw [eq_of_decodeWord_unsupported hd, toNat_wordOfBytes]
  · exact step_unsupported hl (fetchFault_eq_none hle heven) hd

/-- Settles O27: the jump puts back the PC that the fetch has advanced. -/
theorem selfJumpChangesNothing : Obligations.SelfJumpChangesNothing := by
  intro s nnn hl hpc heven hhigh hlow
  have hd : decodeWord s.fetchWord = .instr (.jpNnn nnn) := by
    rw [State.fetchWord, hhigh, hlow, wordOfBytes_bytes]
    exact decodeWord_encode (.jpNnn nnn) rfl
  have hf : s.fetchFault = none := fetchFault_eq_none (by omega) (hpc ▸ heven)
  have htarget : zext16 nnn = s.pc := BitVec.eq_of_toNat_eq (by rw [toNat_zext16_addr, hpc])
  rw [step_instr hl hf hd (execJp_of_even s.advancePc heven), htarget]
  rfl

end Sys2Proof.Machine
end

section
/-! SUPPORT. Control flow: how an instruction ends from what it raises, where a jump, a call, a return and a skip leave PC and the
stack, and from these the statements on the instructions of 41_control_flow.md. -/

namespace Sys2Proof.Machine

/-! ## How an instruction ends -/

/-- In one state an instruction raises at most one outcome (R137). -/
theorem raises_unique {s : State} {o o' : StepOutcome} {i : Instr} (h : raises s o i) (h' : raises s o' i) : o = o' := by
  cases i with
  | sysNnn _ => exact h.trans h'.symm
  | callNnn _ =>
    obtain ⟨hsp, rfl⟩ | ⟨hsp, -, rfl⟩ := h <;> obtain ⟨hsp', rfl⟩ | ⟨hsp', -, rfl⟩ := h'
    · rfl
    · omega
    · omega
    · rfl
  | ret | jpNnn _ | jpV0Nnn _ | drwVxVyN _ _ _ | skpVx _ | sknpVx _ | ldBVx _ | ldMemVx _ | ldVxMem _ =>
    exact h.2.trans h'.2.symm
  | _ => exact h.elim

theorem exec_of_raises {s : State} {o : StepOutcome} {i : Instr} (h : raises s o i) :
    exec i s = .next (s.setOutcome o) := by
  rcases exec_cases i s with ⟨hn, -⟩ | ⟨o', h', e⟩
  · exact absurd h (hn o)
  · rw [e, raises_unique h h']

theorem exec_of_not_raises {s : State} {i : Instr} (h : ∀ o, ¬ raises s o i) :
    exec i s = .next ((effect s i).setOutcome .ok) := by
  rcases exec_cases i s with ⟨-, e⟩ | ⟨o, ho, -⟩
  · exact e
  · exact absurd ho (h o)

/-- A fatal outcome that is raised changes nothing else, and the finish latches it (R136, R137). -/
theorem endsIn_of_raises {s : State} {f : FatalOutcome} {i : Instr} (h : raises s (.fatal f) i) : endsIn i s f :=
  ⟨exec_of_raises h, State.finish_latch _⟩

/-! ## Jumps -/

/-- The sum of Bnnn does not wrap at 16 bits (R160). -/
theorem State.toNat_offsetTarget (s : State) (nnn : Addr12) :
    (s.offsetTarget nnn).toNat = nnn.toNat + (s.getV 0).toNat := by
  rw [offsetTarget, BitVec.toNat_add_of_lt (by simp only [toNat_zext16_addr, toNat_zext16_byte]; omega),
    toNat_zext16_addr, toNat_zext16_byte]

/-- An instruction that jumps to an even target does nothing else (R151). -/
theorem exec_jump_of_even {i : Instr} {s : State} {tgt : Word} (hi : exec i s = s.jumpTo tgt)
    (heven : tgt.toNat % 2 = 0) :
    ∃ t, exec i s = .next t ∧ t.outcome = .ok ∧ t.pc.toNat = tgt.toNat ∧ Frame s t [] [.pc] := by
  rcases s.jumpTo_cases tgt with ⟨-, e⟩ | ⟨hodd, -⟩
  · exact ⟨_, hi.trans e, rfl, rfl, (setPc_frame s tgt).trans (setOutcome_frame _ .ok [] [])⟩
  · omega

/-! ## The stack -/

/-- CALL with room on the stack and an even target pushes PC and jumps (R155). -/
theorem exec_callNnn {s : State} {nnn : Addr12} (hroom : s.sp.val < 16) (heven : nnn.toNat % 2 = 0) :
    exec (.callNnn nnn) s = .next
      (((s.setStack (s.stack.set s.sp.val s.pc hroom) ⟨s.sp.val + 1, by omega⟩).setPc (zext16 nnn)).setOutcome .ok) := by
  have hno : ∀ o, ¬ raises s o (.callNnn nnn) := fun o ho => by
    simp only [raises] at ho
    omega
  rw [exec_of_not_raises hno, effect, dif_pos hroom]

/-- RET with `k + 1` entries in use jumps to entry `k` and leaves `k` in use (R153). -/
theorem exec_ret {s : State} {k : Fin 16} (hk : s.sp.val = k.val + 1) :
    exec .ret s = .next (((s.setStack s.stack k.castSucc).setPc s.stack[k]).setOutcome .ok) := by
  have hno : ∀ o, ¬ raises s o .ret := fun o ho => by
    simp only [raises] at ho
    omega
  have hpos : 0 < s.sp.val := by omega
  have htop : s.sp.val - 1 = k.val := by omega
  rw [exec_of_not_raises hno, effect, dif_pos hpos]
  simp only [htop]
  rfl

/-- The frame of a transfer over the stack. -/
theorem stackTransfer_frame (s : State) (stack : Vector Word 16) (sp : Fin 17) (w : Word) :
    Frame s (((s.setStack stack sp).setPc w).setOutcome .ok) [] [.pc, .stack] :=
  (((setStack_frame s stack sp).trans (setPc_frame _ w)).trans (setOutcome_frame _ .ok [] [])).mono
    (List.Subset.refl _) (by simp)

/-! ## Skips -/

/-- A skip completes with PC moved exactly when its condition holds (R152). -/
theorem exec_skip {i : Instr} {s : State} {c : Bool} {p : Prop} [Decidable p] (hi : exec i s = (s.skipIf c).complete)
    (hc : c = true ↔ p) :
    ∃ t, exec i s = .next t ∧ t.outcome = .ok ∧ t.pc = (if p then s.pc + 2 else s.pc) ∧ Frame s t [] [.pc] :=
  ⟨_, hi, rfl, by simp [hc], (skipIf_frame s c).trans (setOutcome_frame _ .ok [] [])⟩

/-- The opcodes 5xyn and 9xyn with n other than 0 have no instruction (R158, R159). -/
theorem decodeWord_encodeXYN_unsupported {t n : Nat} (ht : t = 0x5 ∨ t = 0x9) (hn : n < 16) (hne : n ≠ 0) (x y : Reg) :
    decodeWord (encodeXYN t x y n) = .unsupported (encodeXYN t x y n) := by
  have hlow : (encodeXYN t x y n).toNat % 16 ≠ 0 := by rwa [← fieldN_val, fieldN_encodeXYN t hn]
  have htag : fieldT (encodeXYN t x y n) = t := fieldT_encodeXYN (by omega) hn x y
  rcases ht with rfl | rfl
  · rw [decodeWord, htag]
    exact (decodeTag5_unsupported_iff _).mpr hlow
  · rw [decodeWord, htag]
    exact (decodeTag9_unsupported_iff _).mpr hlow

/-- Format XY with the sub-operation 0 is its tag and its two register fields (R101). -/
theorem encodeXYN_zero_eq_or {t : Nat} (ht : t < 16) (x y : Reg) :
    encodeXYN t x y 0x0 = BitVec.ofNat 16 (t * 4096) ||| atX x ||| atY y :=
  (encodeXYN_eq_or ht (by decide) x y).trans BitVec.or_zero

/-! ## The statements -/

/-- Settles O21: a full stack and an odd target are raised, in this order, and otherwise the effect of CALL is the push and the
jump. -/
theorem callPushesTheReturnAddress : Obligations.CallPushesTheReturnAddress := by
  intro nnn s
  refine ⟨encodeNNN_eq_or 0x2 nnn, fun hfull => endsIn_of_raises (.inl ⟨hfull, rfl⟩),
    fun hroom hodd => endsIn_of_raises (.inr ⟨hroom, hodd, rfl⟩), fun hroom heven => ?_⟩
  refine ⟨_, exec_callNnn hroom heven, rfl, toNat_zext16_addr nnn, rfl, fun k => ?_, stackTransfer_frame s _ _ _⟩
  simp [Vector.getElem_set, eq_comm]

/-- Settles O22: an empty stack is raised, and otherwise the effect of RET is the pop. -/
theorem returnPopsPc : Obligations.ReturnPopsPc := fun s =>
  ⟨rfl, fun hempty => endsIn_of_raises ⟨hempty, rfl⟩,
    fun _ hk => ⟨_, exec_ret hk, rfl, rfl, rfl, rfl, stackTransfer_frame s _ _ _⟩⟩

/-- Settles O23: RET pops the entry at the old SP, which CALL has set to the old PC. -/
theorem returnUndoesCall : Obligations.ReturnUndoesCall := by
  intro nnn s hroom heven
  obtain ⟨-, -, -, hcall⟩ := callPushesTheReturnAddress nnn s
  obtain ⟨t, ht, -, -, hsp, hstack, -⟩ := hcall hroom heven
  refine ⟨t, ht, fun u hustack husp => ?_⟩
  obtain ⟨-, -, hret⟩ := returnPopsPc u
  obtain ⟨w, hw, hok, hpc, hwsp, -⟩ := hret ⟨s.sp.val, hroom⟩ (by rw [husp, hsp])
  exact ⟨w, hw, hok, by rw [hpc, hustack, hstack, if_pos rfl], Fin.ext hwsp⟩

/-- Settles O20: the jump to an even target completes, and an odd one is raised. -/
theorem jumpSetsPcOrFaults : Obligations.JumpSetsPcOrFaults := by
  intro nnn s
  refine ⟨encodeNNN_eq_or 0x1 nnn, fun heven => ?_, fun hodd => endsIn_of_raises ⟨hodd, rfl⟩⟩
  rw [← toNat_zext16_addr nnn] at heven ⊢
  exact exec_jump_of_even rfl heven

/-- Settles O24: each skip is one `skipIf`, and words with another low nibble have no instruction. -/
theorem skipsAddTwoWhenTheirConditionHolds : Obligations.SkipsAddTwoWhenTheirConditionHolds := by
  intro x y nn s
  refine ⟨⟨encodeXNN_eq_or (t := 0x3) (by decide) x nn, encodeXNN_eq_or (t := 0x4) (by decide) x nn,
    encodeXYN_zero_eq_or (t := 0x5) (by decide) x y, encodeXYN_zero_eq_or (t := 0x9) (by decide) x y⟩, ?_,
    exec_skip rfl beq_iff_eq, exec_skip rfl bne_iff_ne, exec_skip rfl beq_iff_eq, exec_skip rfl bne_iff_ne⟩
  intro n hn op hop
  have hword (t : Nat) (ht : t < 16) :
      BitVec.ofNat 16 (t * 4096) ||| atX x ||| atY y ||| BitVec.ofNat 16 n.val = encodeXYN t x y n.val :=
    (encodeXYN_eq_or ht n.isLt x y).symm
  rw [List.mem_pair] at hop
  rcases hop with rfl | rfl
  · rw [hword 0x5 (by decide)]
    exact decodeWord_encodeXYN_unsupported (.inl rfl) n.isLt hn x y
  · rw [hword 0x9 (by decide)]
    exact decodeWord_encodeXYN_unsupported (.inr rfl) n.isLt hn x y

/-- Settles O25: the target is the sum, so its parity decides between the jump and the fault. -/
theorem offsetJumpAddsV0 : Obligations.OffsetJumpAddsV0 := by
  intro nnn s tgt
  have htgt : (s.offsetTarget nnn).toNat = tgt := s.toNat_offsetTarget nnn
  clear_value tgt
  subst htgt
  refine ⟨encodeNNN_eq_or 0xB nnn, fun heven => exec_jump_of_even rfl heven, fun hodd => ?_⟩
  rw [BitVec.ofNat_toNat, BitVec.setWidth_eq]
  exact endsIn_of_raises ⟨hodd, rfl⟩

/-- Settles O26: the opcode of SYS is its address field, for the tag is 0. -/
theorem sysIsReportedAsUnsupported : Obligations.SysIsReportedAsUnsupported := by
  intro nnn s hcls hret
  have hword : encode (.sysNnn nnn) = 0x0000#16 ||| zext16 nnn := encodeNNN_eq_or 0x0 nnn
  refine ⟨by simp [Instr.wellFormed, hcls, hret], hword, ?_⟩
  rw [hword, BitVec.zero_or]
  rfl

end Sys2Proof.Machine
end

section
/-! SUPPORT. Registers and arithmetic: how the instructions of 42_alu.md end from the one update each of them makes, their results
and flags as numbers, who draws from the oracle, and from these the statements on 42_alu.md and on the count of draws. -/

namespace Sys2Proof.Machine

/-! ## Encodings -/

/-- Format XY is its tag and its sub-operation, which do not overlap, and its two register fields (R101). -/
theorem encodeXYN_eq_base_or {t n : Nat} (ht : t < 16) (hn : n < 16) (x y : Reg) :
    encodeXYN t x y n = BitVec.ofNat 16 (t * 4096 + n) ||| atX x ||| atY y := by
  have hbase : BitVec.ofNat 16 (t * 4096 + n) = BitVec.ofNat 16 (t * 4096) ||| BitVec.ofNat 16 n := by
    apply BitVec.eq_of_toNat_eq
    rw [toNat_or_of_disjoint 4 (by simp only [BitVec.toNat_ofNat]; omega) (by simp only [BitVec.toNat_ofNat]; omega)]
    simp only [BitVec.toNat_ofNat]
    omega
  rw [encodeXYN_eq_or ht hn, hbase, atX, atY]
  ac_rfl

/-! ## How an instruction of the family ends -/

theorem not_raises_of_isAlu {i : Instr} (h : isAlu i = true) (s : State) (o : StepOutcome) : ¬ raises s o i := by
  cases i with
  | ldVxNn _ _ | addVxNn _ _ | ldVxVy _ _ | orVxVy _ _ | andVxVy _ _ | xorVxVy _ _ | addVxVy _ _ | subVxVy _ _
  | shrVxVy _ _ | subnVxVy _ _ | shlVxVy _ _ | rndVxNn _ _ => exact id
  | _ => cases h

/-- Beside general registers the family writes only the model's count of draws. -/
theorem partsWritten_of_isAlu {i : Instr} (h : isAlu i = true) (p : Params) : partsWritten p i ⊆ [.draws] := by
  cases i with
  | rndVxNn _ _ => exact List.Subset.refl _
  | ldVxNn _ _ | addVxNn _ _ | ldVxVy _ _ | orVxVy _ _ | andVxVy _ _ | xorVxVy _ _ | addVxVy _ _ | subVxVy _ _
  | shrVxVy _ _ | subnVxVy _ _ | shlVxVy _ _ => exact List.nil_subset _
  | _ => cases h

section Updates
variable {i : Instr} {s : State} {x : Reg}

/-- No frame speaks of the outcome. -/
theorem Frame.setOutcome {t : State} {rs : List Reg} {ps : List Part} (h : Frame s t rs ps) (o : StepOutcome) :
    Frame s (t.setOutcome o) rs ps := by
  simpa using h.trans (setOutcome_frame t o [] [])

/-- An instruction that is one register write. -/
theorem exec_setV {r : Byte} (hi : exec i s = (s.setV x r).complete) :
    ∃ t, exec i s = .next t ∧ t.outcome = .ok ∧ t.getV x = r ∧ Frame s t [x] [] :=
  ⟨_, hi, rfl, s.getV_setV_same x r, (setV_frame s x r).setOutcome .ok⟩

/-- An instruction that writes a result and then a flag: with `x = 15` the flag is what VF ends up with (R31). -/
theorem exec_setResultAndFlag {r f : Byte} {result flag : Nat} (hi : exec i s = (s.setResultAndFlag x r f).complete)
    (hr : r.toNat = result) (hf : f.toNat = flag) :
    ∃ t, exec i s = .next t ∧ t.outcome = .ok ∧ (x ≠ VF → (t.getV x).toNat = result) ∧ (t.getV VF).toNat = flag ∧
      Frame s t [x, VF] [] := by
  refine ⟨_, hi, rfl, fun hx => ?_, ?_, (setResultAndFlag_frame s x r f).setOutcome .ok⟩
  · rw [State.setOutcome_getV, State.getV_setResultAndFlag, if_neg hx, if_pos rfl, hr]
  · rw [State.setOutcome_getV, State.getV_setResultAndFlag, if_pos rfl, hf]

/-- An instruction that writes a bitwise result and then VF by P_LOGIC_VF (R184 to R186). -/
theorem exec_setLogicResult {a b r : Byte} {f : Bool → Bool → Bool} (hi : exec i s = (s.setLogicResult x r).complete)
    (hr : ∀ k, k < 8 → r.getLsbD k = f (a.getLsbD k) (b.getLsbD k)) :
    ∃ t, exec i s = .next t ∧ t.outcome = .ok ∧
      (s.params.logicVF = .unchanged ∨ x ≠ VF → ∀ k, k < 8 → (t.getV x).getLsbD k = f (a.getLsbD k) (b.getLsbD k)) ∧
      (s.params.logicVF = .reset → t.getV VF = 0) ∧
      Frame s t (if s.params.logicVF = .reset then [x, VF] else [x]) [] := by
  refine ⟨_, hi, rfl, fun hx k hk => ?_, fun hreset => ?_, (setLogicResult_frame s x r).setOutcome .ok⟩
  · have hkept : ¬ (s.params.logicVF = .reset ∧ x = VF) := fun ⟨hreset, hvf⟩ =>
      hx.elim (fun hunchanged => nomatch hunchanged.symm.trans hreset) (fun hne => hne hvf)
    rw [State.setOutcome_getV, State.getV_setLogicResult, if_neg hkept, if_pos rfl, hr k hk]
  · rw [State.setOutcome_getV, State.getV_setLogicResult, if_pos ⟨hreset, rfl⟩]

end Updates

/-! ## Results and flags as numbers -/

theorem toNat_carryFlag (a b : Byte) : (carryFlag a b).toNat = if 255 < a.toNat + b.toNat then 1 else 0 := by
  simp [carryFlag, toNat_flagByte]

theorem toNat_notBorrowFlag (a b : Byte) : (notBorrowFlag a b).toNat = if b.toNat ≤ a.toNat then 1 else 0 := by
  simp [notBorrowFlag, toNat_flagByte]

/-- Bit 0 as a number (R189). -/
theorem toNat_shiftRightFlag (src : Byte) : (shiftRightFlag src).toNat = src.toNat % 2 := by
  rw [shiftRightFlag, toNat_flagByte]
  simp only [decide_eq_true_eq]
  split <;> omega

/-- Bit 7 as a number (R191). -/
theorem toNat_shiftLeftFlag (src : Byte) : (shiftLeftFlag src).toNat = src.toNat / 128 := by
  rw [shiftLeftFlag, toNat_flagByte]
  simp only [decide_eq_true_eq]
  split <;> omega

/-- A difference modulo 256, without a negative number (R188). -/
theorem toNat_byte_sub (a b : Byte) : (a - b).toNat = (a.toNat + 256 - b.toNat) % 256 := by
  rw [BitVec.toNat_sub]
  omega

theorem toNat_byte_ushiftRight_one (a : Byte) : (a >>> 1).toNat = a.toNat / 2 :=
  (BitVec.toNat_ushiftRight a 1).trans (Nat.shiftRight_eq_div_pow _ 1)

theorem toNat_byte_shiftLeft_one (a : Byte) : (a <<< 1).toNat = a.toNat * 2 % 256 := by
  rw [BitVec.toNat_shiftLeft, Nat.shiftLeft_eq]

theorem State.shiftOperand_eq_shifted (s : State) (x y : Reg) : s.shiftOperand x y = shifted s x y := by
  unfold State.shiftOperand shifted
  cases s.params.shiftSrc <;> rfl

/-! ## The count of draws -/

/-- RND stores the next draw, masked, and counts it (R192). -/
theorem exec_rndVxNn (x : Reg) (nn : Byte) (s : State) :
    exec (.rndVxNn x nn) s = .next ((s.countDraw.setV x (Config.randomByte s.draws &&& nn)).setOutcome .ok) := rfl

theorem writers_draws {p : Params} {i : Instr} (h : .draws ∈ partsWritten p i) :
    (∃ x nn, i = .rndVxNn x nn) ∨ ∃ x, i = .ldVxK x := by
  cases i with
  | rndVxNn x nn => exact .inl ⟨x, nn, rfl⟩
  | ldVxK x => exact .inr ⟨x, rfl⟩
  | _ => simp [partsWritten] at h

theorem State.draws_le_pickKey (s : State) (k : Key) (ks : List Key) : s.draws ≤ (s.pickKey k ks).2.draws := by
  unfold State.pickKey
  cases s.params.keywaitPick with
  | lowest => exact le_rfl
  | any => exact Nat.le_succ _

theorem draws_le_effect (s : State) (i : Instr) : s.draws ≤ (effect s i).draws := by
  by_cases hp : Part.draws ∈ partsWritten s.params i
  · obtain ⟨x, nn, rfl⟩ | ⟨x, rfl⟩ := writers_draws hp
    · exact Nat.le_succ _
    · rw [effect]
      cases s.edges with
      | nil => exact le_rfl
      | cons k ks => exact s.draws_le_pickKey k ks
  · exact ((effect_frame s i).others .draws hp).ge

theorem draws_le_of_exec {i : Instr} {s t : State} (h : exec i s = .next t) : s.draws ≤ t.draws := by
  rcases exec_next h with ⟨-, rfl⟩ | ⟨o, -, rfl⟩
  · exact draws_le_effect s i
  · exact le_rfl

theorem draws_le_of_step {s t : State} (h : step s = .next t) : s.draws ≤ t.draws := by
  obtain ⟨-, ⟨f, -, rfl⟩ | ⟨-, op, -, rfl⟩ | ⟨-, i, u, -, hu, rfl⟩⟩ := step_next h
  · rw [State.finish_draws, State.setOutcome_draws]
  · rw [State.finish_draws, State.setOutcome_draws, State.advancePc_draws]
  · have hle := draws_le_of_exec hu
    rwa [State.advancePc_draws, ← State.finish_draws u] at hle

theorem draws_le_of_runtimeOp {s : State} {z : System} {o : HostOp} {r : Reply} (h : runtimeOp s o = .next (z, r)) :
    s.draws ≤ z.drawn := by
  cases o with
  | step =>
    rw [runtimeOp] at h
    rcases stepReply_cases s with ⟨t, ht, e⟩ | ⟨f, -, e⟩
    · rw [e] at h; cases h; exact draws_le_of_step ht
    · rw [e] at h; cases h; exact le_rfl
  | setKeys k => cases h; exact le_rfl
  | tickTimers => cases h; exact le_rfl
  | clearDrawFlag => cases h; exact le_rfl
  | clearClearedFlag => cases h; exact le_rfl
  | readSnapshot => cases h; exact le_rfl
  | load _ | constructMemory _ | constructEngine _ => cases h

/-- The boot takes the count of draws over from the run before. -/
theorem drawn_of_bootOp {b : Build} {m : Memory} {drawn : Nat} {z : System} {o : HostOp} {r : Reply}
    (h : bootOp b m drawn o = .next (z, r)) : z.drawn = drawn := by
  cases o with
  | load buffer => cases h; rfl
  | constructEngine any => cases h; rfl
  | _ => cases h

theorem drawn_le_of_transact {b : Build} {y z : System} {o : HostOp} {r : Reply} (h : transact b y o = .next (z, r)) :
    y.drawn ≤ z.drawn := by
  by_cases ho : ∃ any, o = .constructMemory any
  · obtain ⟨any, rfl⟩ := ho
    rw [transact_constructMemory] at h
    cases h
    exact le_rfl
  · rw [not_exists] at ho
    cases y with
    | empty => exact Nat.zero_le _
    | memory m drawn => exact (drawn_of_bootOp (transact_memory b m drawn ho ▸ h)).ge
    | engine s => exact draws_le_of_runtimeOp (transact_engine b s ho ▸ h)

/-- A step transaction on an engine that is not latched leaves the engine of the step. -/
theorem step_of_transact_step {b : Build} {s t : State} {r : Reply} (hl : s.latch = none)
    (h : transact b (.engine s) .step = .next (.engine t, r)) : step s = .next t := by
  rw [transact_engine b s (o := .step) nofun, runtimeOp] at h
  rcases stepReply_cases s with ⟨u, hu, e⟩ | ⟨f, hf, -⟩
  · rw [e] at h; cases h; exact hu
  · rw [hl] at hf; cases hf

/-! ## The statements -/

/-- Settles O35: the family raises nothing, and its tables name general registers and the count of draws. -/
theorem aluInstructionsTouchOnlyRegisters : Obligations.AluInstructionsTouchOnlyRegisters := by
  intro i s h
  have hexec := exec_of_not_raises (not_raises_of_isAlu h s)
  exact ⟨_, hexec, rfl, (exec_frame hexec).mono (List.Subset.refl _) (partsWritten_of_isAlu h s.params)⟩

/-- Settles O59: the count never falls, and the step that fetches RND is the finish of its one write. -/
theorem noTransactionTakesBackADraw : Obligations.NoTransactionTakesBackADraw := by
  intro b y z o r h
  refine ⟨drawn_le_of_transact h, ?_⟩
  rintro s t rfl rfl rfl hl hf x nn hd
  have hstep := step_of_transact_step hl h
  rw [step_instr hl hf hd (exec_rndVxNn x nn s.advancePc)] at hstep
  cases hstep
  simp [System.drawn]

/-- Settles O28: each load is one register write. -/
theorem loadsSetTheRegister : Obligations.LoadsSetTheRegister := fun x y nn _ =>
  ⟨encodeXNN_eq_or (t := 0x6) (by decide) x nn, encodeXYN_zero_eq_or (t := 0x8) (by decide) x y, exec_setV rfl,
    exec_setV rfl⟩

/-- Settles O29: the sum is one register write, with no flag. -/
theorem addImmediateWrapsWithoutFlag : Obligations.AddImmediateWrapsWithoutFlag := by
  intro x nn s
  obtain ⟨t, ht, hok, hx, hframe⟩ := exec_setV (i := .addVxNn x nn) (s := s) rfl
  exact ⟨encodeXNN_eq_or (t := 0x7) (by decide) x nn, t, ht, hok, by rw [hx, BitVec.toNat_add], hframe⟩

/-- Settles O30: each of the three is one bitwise result with the VF effect after it. -/
theorem logicIsBitwise : Obligations.LogicIsBitwise := by
  intro x y s i base f h
  simp only [List.mem_cons, List.not_mem_nil, or_false, Prod.mk.injEq] at h
  obtain ⟨rfl, rfl, rfl⟩ | ⟨rfl, rfl, rfl⟩ | ⟨rfl, rfl, rfl⟩ := h
  · exact ⟨encodeXYN_eq_base_or (t := 0x8) (n := 0x1) (by decide) (by decide) x y,
      exec_setLogicResult rfl fun _ _ => BitVec.getLsbD_or⟩
  · exact ⟨encodeXYN_eq_base_or (t := 0x8) (n := 0x2) (by decide) (by decide) x y,
      exec_setLogicResult rfl fun _ _ => BitVec.getLsbD_and⟩
  · exact ⟨encodeXYN_eq_base_or (t := 0x8) (n := 0x3) (by decide) (by decide) x y,
      exec_setLogicResult rfl fun _ _ => BitVec.getLsbD_xor⟩

/-- Settles O31: the sum modulo 256 and its carry, in this order. -/
theorem addSetsCarry : Obligations.AddSetsCarry := fun x y _ =>
  ⟨encodeXYN_eq_base_or (t := 0x8) (n := 0x4) (by decide) (by decide) x y,
    exec_setResultAndFlag rfl (BitVec.toNat_add _ _) (toNat_carryFlag _ _)⟩

/-- Settles O32: the difference modulo 256 and NOT borrow, in both operand orders. -/
theorem subtractionSetsNotBorrow : Obligations.SubtractionSetsNotBorrow := fun x y _ =>
  ⟨encodeXYN_eq_base_or (t := 0x8) (n := 0x5) (by decide) (by decide) x y,
    encodeXYN_eq_base_or (t := 0x8) (n := 0x7) (by decide) (by decide) x y,
    exec_setResultAndFlag rfl (toNat_byte_sub _ _) (toNat_notBorrowFlag _ _),
    exec_setResultAndFlag rfl (toNat_byte_sub _ _) (toNat_notBorrowFlag _ _)⟩

/-- Settles O33: the operand is the one P_SHIFT_SRC names, and the flag is the bit that its division by 2, or its product with 2,
loses. -/
theorem shiftsMoveOneBitIntoVF : Obligations.ShiftsMoveOneBitIntoVF := by
  intro x y s
  rw [← s.shiftOperand_eq_shifted]
  exact ⟨encodeXYN_eq_base_or (t := 0x8) (n := 0x6) (by decide) (by decide) x y,
    encodeXYN_eq_base_or (t := 0x8) (n := 0xE) (by decide) (by decide) x y,
    exec_setResultAndFlag rfl (toNat_byte_ushiftRight_one _) (toNat_shiftRightFlag _),
    exec_setResultAndFlag rfl (toNat_byte_shiftLeft_one _) (toNat_shiftLeftFlag _)⟩

/-- Settles O34: RND is a count of the draw and one register write. -/
theorem randomIsAMaskedFreshDraw : Obligations.RandomIsAMaskedFreshDraw := by
  intro x nn s
  have hexec := exec_rndVxNn x nn s
  refine ⟨encodeXNN_eq_or (t := 0xC) (by decide) x nn, _, hexec, rfl, fun k _ => ?_, rfl, exec_frame hexec⟩
  rw [State.setOutcome_getV, State.getV_setV_same, BitVec.getLsbD_and]

end Sys2Proof.Machine
end

section
/-! SUPPORT. The index register and memory: encodings of format X, when an access at I fits, what a store leaves in each byte,
where I and VF end up, and from these the statements on 43_index_memory.md. -/

namespace Sys2Proof.Machine

/-! ## Encodings -/

/-- A tag and a number below its place do not overlap (R100). -/
theorem ofNat_tag_add_eq_or (t : Nat) {low : Nat} (hlow : low < 4096) :
    BitVec.ofNat 16 (t * 4096 + low) = BitVec.ofNat 16 (t * 4096) ||| BitVec.ofNat 16 low := by
  apply BitVec.eq_of_toNat_eq
  rw [toNat_or_of_disjoint 12 (by simp only [BitVec.toNat_ofNat]; omega) (by simp only [BitVec.toNat_ofNat]; omega)]
  simp only [BitVec.toNat_ofNat]
  omega

/-- Format X is its tag with its sub-operation, and its register field (R101). -/
theorem encodeX_eq_base_or {t sub : Nat} (ht : t < 16) (hs : sub < 256) (x : Reg) :
    encodeX t x sub = BitVec.ofNat 16 (t * 4096 + sub) ||| atX x := by
  rw [encodeX_eq_or ht hs, ofNat_tag_add_eq_or t (by omega), atX]
  ac_rfl

/-! ## Accesses at I -/

/-- An access fits when its last byte is at most 0xFFF (R15, R72). -/
theorem accessInRange_of_le {a k : Nat} (h : a + k ≤ 0xFFF) : accessInRange a (k + 1) = true :=
  accessInRange_iff.mpr (.inr (by omega))

theorem accessInRange_of_lt {a k : Nat} (h : 0xFFF < a + k) : accessInRange a (k + 1) = false :=
  Bool.eq_false_iff.mpr fun hin => by have := accessInRange_iff.mp hin; omega

/-- An instruction that raises only when its access at I does not fit completes when it fits (R210). -/
theorem exec_of_access_le {i : Instr} {s : State} {k : Nat} (hle : s.i.toNat + k ≤ 0xFFF)
    (hr : ∀ o, raises s o i → accessInRange s.i.toNat (k + 1) = false) :
    exec i s = .next ((effect s i).setOutcome .ok) :=
  exec_of_not_raises fun o ho => Bool.false_ne_true ((hr o ho).symm.trans (accessInRange_of_le hle))

section Stores
variable {m : Memory} {a : Nat} {bs : List Byte}

theorem Memory.read_writeBytes_inside (hm : m.wf = true) (h : a + bs.length ≤ memSize) {j : Nat} (hj : j < bs.length) :
    (m.writeBytes a bs).read (a + j) = bs.getD j 0 := by
  rw [Memory.read_writeBytes hm h, if_pos (by omega), Nat.add_sub_cancel_left]

theorem Memory.read_writeBytes_outside (hm : m.wf = true) (h : a + bs.length ≤ memSize) {c : Nat}
    (hc : c < a ∨ a + bs.length ≤ c) : (m.writeBytes a bs).read c = m.read c := by
  rw [Memory.read_writeBytes hm h, if_neg (by omega)]

end Stores

/-- The digits of a byte as numbers: none exceeds 9, so none is cut off (R214). -/
theorem map_toNat_decimalDigits (b : Byte) :
    (decimalDigits b).map BitVec.toNat = [b.toNat / 100, b.toNat / 10 % 10, b.toNat % 10] := by
  have hb := b.isLt
  simp only [decimalDigits, List.map_cons, List.map_nil, BitVec.toNat_ofNat, List.cons.injEq, and_true]
  omega

/-! ## I and VF -/

/-- An instruction that is one write of I. -/
theorem exec_setI {i : Instr} {s : State} {w : Word} {n : Nat} (hi : exec i s = (s.setI w).complete) (hw : w.toNat = n) :
    ∃ t, exec i s = .next t ∧ t.outcome = .ok ∧ t.i.toNat = n ∧ Frame s t [] [.i] :=
  ⟨_, hi, rfl, hw, (setI_frame s w).setOutcome .ok⟩

/-- The address of a glyph is not cut off at 16 bits (R213). -/
theorem toNat_glyphAddress (b : Byte) : (glyphAddress b).toNat = 5 * b.toNat := by
  rw [glyphAddress, BitVec.toNat_ofNat]
  omega

theorem toNat_indexOverflowFlag (i : Word) (a : Byte) :
    (indexOverflowFlag i a).toNat = if 0xFFF < i.toNat + a.toNat then 1 else 0 := by
  simp [indexOverflowFlag, toNat_flagByte]

/-- I after Fx55 and Fx65 as a number (R215, R216). -/
theorem State.toNat_bumpIndex_i (s : State) (x : Reg) :
    (s.bumpIndex x).i.toNat =
      if s.params.ldstI = .increment then (s.i.toNat + x.val + 1) % 65536 else s.i.toNat := by
  rw [State.bumpIndex_i]
  split
  · simp only [BitVec.toNat_add, BitVec.toNat_ofNat]
    omega
  · rfl

/-- P_LDST_I decides only whether I is written (R32, R37). -/
theorem indexIfIncrement_subset (p : Params) : (if p.ldstI = .increment then [Part.i] else []) ⊆ [.i] := by
  split
  · exact List.Subset.refl _
  · exact List.nil_subset _

/-! ## The statements -/

/-- Settles O39: a store of three bytes at I, which are the three digits. -/
theorem bcdStoresThreeDigits : Obligations.BcdStoresThreeDigits := by
  intro x s hm
  refine ⟨encodeX_eq_base_or (t := 0xF) (sub := 0x33) (by decide) (by decide) x, fun hle => ?_,
    fun hlt => endsIn_of_raises ⟨accessInRange_of_lt hlt, rfl⟩⟩
  have hexec := exec_of_access_le (i := .ldBVx x) hle fun _ ho => ho.1
  have hfits : s.i.toNat + (decimalDigits (s.getV x)).length ≤ memSize := Nat.succ_le_succ hle
  have hdigit (j : Nat) (hj : j < 3) : ((effect s (.ldBVx x)).mem.read (s.i.toNat + j)).toNat =
      [(s.getV x).toNat / 100, (s.getV x).toNat / 10 % 10, (s.getV x).toNat % 10].getD j 0 := by
    rw [← map_toNat_decimalDigits]
    exact (congrArg BitVec.toNat (Memory.read_writeBytes_inside hm hfits hj)).trans (List.getD_map _ _ _).symm
  exact ⟨_, hexec, rfl, hdigit 0 (by decide), hdigit 1 (by decide), hdigit 2 (by decide),
    fun _ ha => Memory.read_writeBytes_outside hm hfits ha, exec_frame hexec⟩

/-- Settles O40: a store of the block at I, and then the write of I. -/
theorem registerDumpStoresTheBlock : Obligations.RegisterDumpStoresTheBlock := by
  intro x s hm
  refine ⟨encodeX_eq_base_or (t := 0xF) (sub := 0x55) (by decide) (by decide) x, fun hle => ?_,
    fun hlt => endsIn_of_raises ⟨accessInRange_of_lt hlt, rfl⟩⟩
  have hexec := exec_of_access_le (i := .ldMemVx x) hle fun _ ho => ho.1
  have hfits : s.i.toNat + (s.regBlock x).length ≤ memSize := by
    rw [length_regBlock]
    exact Nat.succ_le_succ hle
  refine ⟨_, hexec, rfl, fun _ hj => execLdMemVx_read hm hexec rfl hj, fun a ha => ?_, State.toNat_bumpIndex_i _ x,
    (exec_frame hexec).mono (List.Subset.refl _) (List.cons_subset_cons _ (indexIfIncrement_subset _))⟩
  rw [State.setOutcome_mem, effect, State.bumpIndex_mem, State.setMem_mem]
  exact Memory.read_writeBytes_outside hm hfits (by rw [length_regBlock]; omega)

/-- Settles O41: the bytes read at I go to the registers they reach, and then the write of I. -/
theorem registerLoadReadsTheBlock : Obligations.RegisterLoadReadsTheBlock := by
  intro x s
  refine ⟨encodeX_eq_base_or (t := 0xF) (sub := 0x65) (by decide) (by decide) x, fun hle => ?_,
    fun hlt => endsIn_of_raises ⟨accessInRange_of_lt hlt, rfl⟩⟩
  have hexec := exec_of_access_le (i := .ldVxMem x) hle fun _ ho => ho.1
  have hread (j : Reg) : (effect s (.ldVxMem x)).getV j =
      if j.val < x.val + 1 then s.mem.read (s.i.toNat + j.val) else s.getV j := by
    rw [effect, State.bumpIndex_getV, State.getV_loadRegBlock, Memory.getD_readBytes]
  exact ⟨_, hexec, rfl, fun j hj => (hread j).trans (if_pos (Nat.lt_succ_of_le hj)),
    fun j hj => (hread j).trans (if_neg (Nat.not_lt_of_le hj)), State.toNat_bumpIndex_i _ x,
    (exec_frame hexec).mono (List.Subset.refl _) (indexIfIncrement_subset _)⟩

/-- Settles O37: each of the two is one write of I. -/
theorem indexLoadsSetI : Obligations.IndexLoadsSetI := fun nnn x s =>
  ⟨encodeNNN_eq_or 0xA nnn, encodeX_eq_base_or (t := 0xF) (sub := 0x29) (by decide) (by decide) x,
    exec_setI rfl (toNat_zext16_addr nnn), exec_setI rfl (toNat_glyphAddress (s.getV x))⟩

/-- Settles O38: the sum goes to I modulo 65536, and the flag of the unreduced sum to VF by P_FX1E_VF. -/
theorem indexAddFlagsOverflow : Obligations.IndexAddFlagsOverflow := by
  intro x s
  have hexec : exec (.addIVx x) s = .next ((effect s (.addIVx x)).setOutcome .ok) := rfl
  refine ⟨encodeX_eq_base_or (t := 0xF) (sub := 0x1E) (by decide) (by decide) x, _, hexec, rfl, ?_, fun hflag => ?_,
    exec_frame hexec⟩
  · rw [State.setOutcome_i, effect, State.setIndexFlag_i, State.setI_i, BitVec.toNat_add, toNat_zext16_byte]
  · rw [State.setOutcome_getV, effect, State.getV_setIndexFlag, if_pos ⟨hflag, rfl⟩, toNat_indexOverflowFlag]

end Sys2Proof.Machine
end

section
/-! SUPPORT. The display: pixels by their coordinates, the collision of a draw as an erased pixel, when a draw completes, and from
these the statements on 44_display.md. -/

namespace Sys2Proof.Machine

/-! ## Pixels by their coordinates -/

/-- Coordinates on the screen do not wrap (R43). -/
theorem Framebuffer.pixel_fin (fb : Framebuffer) (px : Fin 64) (py : Fin 32) : fb.pixel px.val py.val = fb[px][py] := by
  simp [Framebuffer.pixel, Nat.mod_eq_of_lt]

theorem Framebuffer.eq_of_getElem_eq {fb fb' : Framebuffer} (h : ∀ (px : Fin 64) (py : Fin 32), fb[px][py] = fb'[px][py]) :
    fb = fb' :=
  Vector.ext fun px hx => Vector.ext fun py hy => h ⟨px, hx⟩ ⟨py, hy⟩

theorem Framebuffer.getElem_clear (px : Fin 64) (py : Fin 32) : Framebuffer.clear[px][py] = false := by
  rw [← Framebuffer.pixel_fin, Framebuffer.pixel_clear]

/-! ## A sprite on the screen -/

section Sprites
variable (fb : Framebuffer) (cx cy : Nat) {rows : List Byte} (h : rows.length ≤ 32)
include h

theorem getElem_drawSprite (px : Fin 64) (py : Fin 32) :
    (drawSprite fb cx cy rows).1[px][py] = (fb[px][py] ^^ spriteOn rows cx cy px.val py.val) := by
  rw [← Framebuffer.pixel_fin, pixel_drawSprite fb cx cy rows _ _ h, Framebuffer.pixel_fin]

/-- A collision is a pixel that was on and is off after the draw (R242). -/
theorem hit_drawSprite_iff_erased :
    (drawSprite fb cx cy rows).2 = true ↔
      ∃ (px : Fin 64) (py : Fin 32), fb[px][py] = true ∧ (drawSprite fb cx cy rows).1[px][py] = false := by
  rw [hit_drawSprite fb cx cy rows h]
  constructor
  · rintro ⟨px, py, hx, hy, hfb, hon⟩
    have hwas : fb[(⟨px, hx⟩ : Fin 64)][(⟨py, hy⟩ : Fin 32)] = true := (fb.pixel_fin ⟨px, hx⟩ ⟨py, hy⟩).symm.trans hfb
    exact ⟨⟨px, hx⟩, ⟨py, hy⟩, hwas, by rw [getElem_drawSprite fb cx cy h, hwas, hon]; rfl⟩
  · rintro ⟨px, py, hwas, hoff⟩
    rw [getElem_drawSprite fb cx cy h, hwas] at hoff
    exact ⟨px, py, px.isLt, py.isLt, (fb.pixel_fin px py).trans hwas, by simpa using hoff⟩

end Sprites

theorem length_spriteRows_le (s : State) (n : Height) : (spriteRows s n).length ≤ 32 := by
  have := n.isLt
  simp only [spriteRows, List.length_map, List.length_range]
  omega

/-- The sprite depends on I and the bytes of memory alone. -/
theorem spriteRows_congr {s u : State} (hi : u.i = s.i) (hmem : ∀ a, u.mem.read a = s.mem.read a) (n : Height) :
    spriteRows u n = spriteRows s n := by
  simp only [spriteRows, hi, hmem]

theorem flagByte_eq_one_or_zero (b : Bool) : flagByte b = 1 ∨ flagByte b = 0 := by
  cases b <;> decide

theorem flagByte_eq_one_iff (b : Bool) : flagByte b = 1 ↔ b = true := by
  cases b <;> decide

/-! ## When a draw completes -/

/-- A draw of height 0 reads nothing, and otherwise the last byte of the sprite decides (R72, R242). -/
theorem accessInRange_height_iff (a : Nat) (n : Height) :
    accessInRange a n.val = true ↔ n.val = 0 ∨ a + n.val - 1 ≤ 0xFFF := by
  rw [accessInRange_iff]
  omega

/-- A draw whose sprite is in memory takes its effect (R242). -/
theorem execDrwVxVyN_of_access {n : Height} {s : State} (x y : Reg) (h : accessInRange s.i.toNat n.val = true) :
    exec (.drwVxVyN x y n) s = .next ((effect s (.drwVxVyN x y n)).setOutcome .ok) :=
  exec_of_not_raises fun _ ho => Bool.false_ne_true (ho.1.symm.trans h)

/-! ## The statements -/

/-- Settles O44: the sprite read at I is drawn, its collision goes to VF after the framebuffer and DRAW_FLAG, and a sprite that
leaves memory is raised. -/
theorem drawXorsTheSprite : Obligations.DrawXorsTheSprite := by
  intro x y n s
  refine ⟨encodeXYN_eq_or (t := 0xD) (by decide) n.isLt x y, fun hin => ?_, fun hpos hout => ?_⟩
  · have hexec := execDrwVxVyN_of_access x y ((accessInRange_height_iff _ n).mpr hin)
    have hrows := length_spriteRows_le s n
    have hvf : ((effect s (.drwVxVyN x y n)).setOutcome .ok).getV VF =
        flagByte (drawSprite s.fb (s.getV x).toNat (s.getV y).toNat (spriteRows s n)).2 := State.getV_setV_same _ VF _
    refine ⟨_, hexec, rfl, getElem_drawSprite _ _ _ hrows, ?_, ?_, rfl, exec_frame hexec⟩
    · rw [hvf]
      exact flagByte_eq_one_or_zero _
    · rw [hvf, flagByte_eq_one_iff]
      exact hit_drawSprite_iff_erased _ _ _ hrows
  · have haccess : ¬ accessInRange s.i.toNat n.val = true := by
      rw [accessInRange_height_iff]
      omega
    exact endsIn_of_raises ⟨Bool.eq_false_iff.mpr haccess, rfl⟩

/-- Settles O45: the second draw XORs the same sprite onto every pixel again, so a pixel it erases is one that the first draw
turned on. -/
theorem drawingTwiceRestoresTheScreen : Obligations.DrawingTwiceRestoresTheScreen := by
  intro x y n s t u ht hok hfb hi hmem hx hy
  obtain ⟨-, hdraw, hfault⟩ := drawXorsTheSprite x y n s
  have hin : n.val = 0 ∨ s.i.toNat + n.val - 1 ≤ 0xFFF := by
    by_contra hout
    rw [not_or, not_le] at hout
    obtain ⟨hexec, -⟩ := hfault (Nat.one_le_iff_ne_zero.mpr hout.1) hout.2
    cases ht.symm.trans hexec
    cases hok
  obtain ⟨t', ht', -, hfirst, -⟩ := hdraw hin
  cases ht.symm.trans ht'
  obtain ⟨-, hdraw', -⟩ := drawXorsTheSprite x y n u
  obtain ⟨w, hw, hwok, hsecond, -, hvf, -⟩ := hdraw' (hi ▸ hin)
  have hrestored : w.fb = s.fb := Framebuffer.eq_of_getElem_eq fun px py => by
    rw [hsecond, hfb, hfirst, spriteRows_congr hi hmem, hx, hy, Bool.xor_assoc, Bool.xor_self, Bool.xor_false]
  refine ⟨w, hw, hwok, hrestored, ?_⟩
  rw [hvf, hfb, hrestored]
  simp only [and_comm]

/-- Settles O43: the framebuffer becomes the clear one, CLEARED_FLAG is set after it, and nothing is raised. -/
theorem clearTurnsEveryPixelOff : Obligations.ClearTurnsEveryPixelOff := by
  intro s
  have hexec : exec .cls s = .next ((effect s .cls).setOutcome .ok) := rfl
  exact ⟨rfl, _, hexec, rfl, Framebuffer.getElem_clear, rfl, exec_frame hexec⟩

end Sys2Proof.Machine
end

section
/-! SUPPORT. Keypad and timers: the key edges as a sorted list, which of them a key-wait stores, when it waits, the state of a key
by its number, a tick as a number, and from these the statements on 45_keys_timers.md. -/

namespace Sys2Proof.Machine

/-! ## Key edges -/

theorem State.mem_edges_iff (s : State) (k : Key) : k ∈ s.edges ↔ isEdge s k := by
  simp [State.edges, isEdge]

theorem State.edges_eq_nil_iff (s : State) : s.edges = [] ↔ ∀ k, ¬ isEdge s k := by
  simp only [List.eq_nil_iff_forall_not_mem, State.mem_edges_iff]

/-- The first of the edges is the lowest (R264). -/
theorem State.edges_head_le {s : State} {k j : Key} {ks : List Key} (h : s.edges = k :: ks) (hj : isEdge s j) : k ≤ j := by
  have hsorted : s.edges.Pairwise (· < ·) := (List.pairwise_lt_finRange 16).filter _
  have hmem : j ∈ s.edges := (s.mem_edges_iff j).mpr hj
  rw [h] at hsorted hmem
  rcases List.mem_cons.mp hmem with rfl | hlater
  · exact le_rfl
  · exact (List.rel_of_pairwise_cons hsorted hlater).le

theorem not_isEdge_of_down_before {s : State} (h : ∀ j : Key, s.keys[j] = true → s.prevKeys[j] = true) (k : Key) :
    ¬ isEdge s k := fun ⟨hdown, hup⟩ => Bool.false_ne_true (hup.symm.trans (h k hdown))

/-! ## The key-wait -/

theorem State.pickKey_of_lowest {s : State} (h : s.params.keywaitPick = .lowest) (k : Key) (ks : List Key) :
    s.pickKey k ks = (k, s) := by
  rw [State.pickKey, h]

/-- Whatever the free pick is, the stored key is one of the edges (R264). -/
theorem State.pickKey_mem (s : State) (k : Key) (ks : List Key) : (s.pickKey k ks).1 ∈ k :: ks := by
  unfold State.pickKey
  cases s.params.keywaitPick with
  | lowest => exact List.mem_cons_self
  | any =>
    have hlt : Config.keyPick s.draws % (ks.length + 1) < (k :: ks).length := Nat.mod_lt _ ks.length.succ_pos
    exact List.getD_eq_getElem _ k hlt ▸ List.getElem_mem hlt

/-- Taking a key draws at most one free value (R264). -/
theorem pickKey_frame_draws (s : State) (k : Key) (ks : List Key) : Frame s (s.pickKey k ks).2 [] [.draws] :=
  (pickKey_frame s k ks).mono (List.Subset.refl _) (by split <;> simp)

theorem toNat_keyNumber (k : Key) : (BitVec.ofNat 8 k.val : Byte).toNat = k.val :=
  (BitVec.toNat_ofNat _ _).trans (Nat.mod_eq_of_lt (k.isLt.trans (by decide)))

/-- With no edge LD Vx, K goes back by one instruction (R265, R266). -/
theorem exec_ldVxK_of_no_edge {s : State} (x : Reg) (h : ∀ k, ¬ isEdge s k) :
    exec (.ldVxK x) s = .next ((s.setPc (s.pc - 2)).setOutcome .ok) := by
  rw [exec, execLdVxK, s.edges_eq_nil_iff.mpr h]
  rfl

/-- With edges LD Vx, K stores the picked one (R266). -/
theorem exec_ldVxK_of_edges {s : State} {k : Key} {ks : List Key} (x : Reg) (h : s.edges = k :: ks) :
    exec (.ldVxK x) s =
      .next (((s.pickKey k ks).2.setV x (BitVec.ofNat 8 (s.pickKey k ks).1.val)).setOutcome .ok) := by
  rw [exec, execLdVxK, h]
  rfl

/-! ## The key skips -/

/-- A number that names a key reads its state (R261). -/
theorem State.keyDown_of_toNat_eq {s : State} {v : Byte} {k : Key} (h : v.toNat = k.val) :
    s.keyDown v = .ok s.keys[k] := by
  rcases s.keyDown_cases v with ⟨_, e⟩ | ⟨habove, -⟩
  · rw [e]
    simp only [h, Fin.getElem_fin]
  · omega

section Skips
variable {s : State} {x : Reg} {k : Key} (h : (s.getV x).toNat = k.val)
include h

theorem exec_skpVx_of_key : exec (.skpVx x) s = (s.skipIf s.keys[k]).complete := by
  rw [exec, execSkpVx, State.keyDown_of_toNat_eq h]

theorem exec_sknpVx_of_key : exec (.sknpVx x) s = (s.skipIf (!s.keys[k])).complete := by
  rw [exec, execSknpVx, State.keyDown_of_toNat_eq h]

end Skips

/-! ## The tick -/

/-- A tick is the subtraction that stops at 0 (R270). -/
theorem toNat_tickTimer (b : Byte) : (tickTimer b).toNat = b.toNat - 1 := by
  rw [tickTimer]
  split
  case isTrue hzero => rw [hzero]; rfl
  case isFalse hpos =>
    have hne : b.toNat ≠ 0 := fun hz => hpos (BitVec.eq_of_toNat_eq hz)
    exact BitVec.toNat_sub_of_le (BitVec.le_def.mpr (Nat.one_le_iff_ne_zero.mpr hne))

/-! ## The statements -/

/-- Settles O47: the edges are a sorted list, so with none of them PC goes back, and otherwise the pick is one of them and under
LOWEST the first. -/
theorem keyWaitTakesAnEdgeOrWaits : Obligations.KeyWaitTakesAnEdgeOrWaits := by
  intro x s
  refine ⟨encodeX_eq_base_or (t := 0xF) (sub := 0x0A) (by decide) (by decide) x, fun hnone => ?_, fun ⟨j, hj⟩ => ?_⟩
  · exact ⟨_, exec_ldVxK_of_no_edge x hnone, rfl, rfl, (setPc_frame s _).setOutcome .ok⟩
  · cases hedges : s.edges with
    | nil => exact absurd hj (s.edges_eq_nil_iff.mp hedges j)
    | cons k ks =>
      refine ⟨_, exec_ldVxK_of_edges x hedges, rfl, ⟨(s.pickKey k ks).1, ?_, ?_, fun hlowest i hi => ?_⟩, ?_⟩
      · rw [← State.mem_edges_iff, hedges]
        exact s.pickKey_mem k ks
      · rw [State.setOutcome_getV, State.getV_setV_same, toNat_keyNumber]
      · rw [State.pickKey_of_lowest hlowest]
        exact State.edges_head_le hedges hi
      · exact ((pickKey_frame_draws s k ks).trans (setV_frame _ x _)).setOutcome .ok

/-- Settles O48: the step leaves PREV_KEYS equal to KEYS, so a later snapshot has an edge only at a key that goes down after it,
and the key-wait takes back the fetch's advance of PC. -/
theorem aStepConsumesEveryEdge : Obligations.AStepConsumesEveryEdge := by
  intro s t ht
  obtain ⟨hprev, hkeys, -, -⟩ := everyStepFinishes s t ht
  have hsame : t.prevKeys = t.keys := hprev.trans hkeys.symm
  refine ⟨not_isEdge_of_down_before fun j hj => by rwa [hsame], fun x k hk => ?_⟩
  have hnone : ∀ j, ¬ isEdge (t.setKeys k).advancePc j := not_isEdge_of_down_before fun j hj => by
    change t.prevKeys[j] = true
    rw [hsame]
    exact hk j hj
  obtain ⟨-, hwait, -⟩ := keyWaitTakesAnEdgeOrWaits x (t.setKeys k).advancePc
  obtain ⟨w, hw, hok, hpc, hframe⟩ := hwait hnone
  exact ⟨w, hw, hok, hpc.trans (BitVec.add_sub_cancel t.pc 2), hframe⟩

/-- Settles O46: a number up to 15 names a key, and each skip is one `skipIf` on its state; a number above 15 is raised. -/
theorem keySkipsTestTheSnapshot : Obligations.KeySkipsTestTheSnapshot := by
  intro x s
  refine ⟨encodeX_eq_base_or (t := 0xE) (sub := 0x9E) (by decide) (by decide) x,
    encodeX_eq_base_or (t := 0xE) (sub := 0xA1) (by decide) (by decide) x, fun k hk => ⟨?_, ?_⟩, fun habove => ⟨?_, ?_⟩⟩
  · exact exec_skip (exec_skpVx_of_key hk) Iff.rfl
  · exact exec_skip (exec_sknpVx_of_key hk) (Bool.not_eq_true' _).to_iff
  · exact endsIn_of_raises ⟨habove, rfl⟩
  · exact endsIn_of_raises ⟨habove, rfl⟩

/-- Settles O49: each of the three is one register write or one timer write. -/
theorem timerInstructionsMoveTheTimers : Obligations.TimerInstructionsMoveTheTimers := fun x s =>
  ⟨encodeX_eq_base_or (t := 0xF) (sub := 0x07) (by decide) (by decide) x,
    encodeX_eq_base_or (t := 0xF) (sub := 0x15) (by decide) (by decide) x,
    encodeX_eq_base_or (t := 0xF) (sub := 0x18) (by decide) (by decide) x,
    exec_setV rfl, ⟨_, rfl, rfl, rfl, (setDt_frame s _).setOutcome .ok⟩,
    ⟨_, rfl, rfl, rfl, (setSt_frame s _).setOutcome .ok⟩⟩

/-- Settles O56: the host's tick is `tickTimers`, which lowers both timers and is a record update of them alone. -/
theorem tickLowersNonzeroTimersByOne : Obligations.TickLowersNonzeroTimersByOne := fun b s =>
  ⟨s.tickTimers, transact_engine b s (o := .tickTimers) nofun, toNat_tickTimer s.dt, toNat_tickTimer s.st, rfl⟩

end Sys2Proof.Machine
end

section
/-! SUPPORT. Outcomes and the host: which instruction raises which outcome, what a step that does not return Ok leaves, the
invariant along every transaction and every run of the host, and from these the statements on 60_exceptions.md. -/

namespace Sys2Proof.Machine

/-! ## Who raises each outcome -/

/-- An outcome other than Ok is one that the instruction raises (R137). -/
theorem raises_of_exec {i : Instr} {s t : State} {o : StepOutcome} (h : exec i s = .next t) (ho : t.outcome = o)
    (hne : o ≠ .ok) : raises s o i := by
  subst ho
  rcases exec_next h with ⟨-, rfl⟩ | ⟨o, hr, rfl⟩
  · exact absurd rfl hne
  · exact hr

section Raisers
variable {s : State} {i : Instr} {v : Word}

theorem raisers_unsupportedInstruction {op : Word} (h : raises s (.unsupportedInstruction op) i) :
    ∃ nnn, i = .sysNnn nnn ∧ op = zext16 nnn := by
  cases i with
  | sysNnn nnn => exact ⟨nnn, rfl, by simpa [raises] using h⟩
  | _ => simp [raises] at h

theorem raisers_stackOverflow (h : raises s (.fatal .stackOverflow) i) : (∃ nnn, i = .callNnn nnn) ∧ s.sp.val = 16 := by
  cases i with
  | callNnn nnn => exact ⟨⟨nnn, rfl⟩, by simpa [raises] using h⟩
  | _ => simp [raises] at h

theorem raisers_stackUnderflow (h : raises s (.fatal .stackUnderflow) i) : i = .ret ∧ s.sp.val = 0 := by
  cases i with
  | ret => exact ⟨rfl, h.1⟩
  | _ => simp [raises] at h

theorem raisers_readRange (h : raises s (.fatal (.addressFault .readRange v)) i) :
    v = s.i ∧ ((∃ x y n, i = .drwVxVyN x y n) ∨ ∃ x, i = .ldVxMem x) := by
  cases i with
  | drwVxVyN x y n => cases h.2; exact ⟨rfl, .inl ⟨x, y, n, rfl⟩⟩
  | ldVxMem x => cases h.2; exact ⟨rfl, .inr ⟨x, rfl⟩⟩
  | _ => simp [raises] at h

theorem raisers_writeRange (h : raises s (.fatal (.addressFault .writeRange v)) i) :
    v = s.i ∧ ((∃ x, i = .ldBVx x) ∨ ∃ x, i = .ldMemVx x) := by
  cases i with
  | ldBVx x => cases h.2; exact ⟨rfl, .inl ⟨x, rfl⟩⟩
  | ldMemVx x => cases h.2; exact ⟨rfl, .inr ⟨x, rfl⟩⟩
  | _ => simp [raises] at h

/-- The reported target is the odd one: nnn, or for Bnnn the sum, which does not wrap (R151, R160). -/
theorem raisers_misalignedTarget (h : raises s (.fatal (.addressFault .misalignedTarget v)) i) :
    v.toNat % 2 = 1 ∧ ∃ nnn, (i = .jpNnn nnn ∧ v = zext16 nnn) ∨ (i = .callNnn nnn ∧ v = zext16 nnn) ∨
      (i = .jpV0Nnn nnn ∧ v.toNat = nnn.toNat + (s.getV 0).toNat) := by
  cases i with
  | jpNnn nnn =>
    obtain ⟨hodd, rfl⟩ : nnn.toNat % 2 = 1 ∧ v = zext16 nnn := by simpa [raises] using h
    exact ⟨by rwa [toNat_zext16_addr], nnn, .inl ⟨rfl, rfl⟩⟩
  | callNnn nnn =>
    obtain ⟨-, hodd, rfl⟩ : s.sp.val < 16 ∧ nnn.toNat % 2 = 1 ∧ v = zext16 nnn := by simpa [raises] using h
    exact ⟨by rwa [toNat_zext16_addr], nnn, .inr (.inl ⟨rfl, rfl⟩)⟩
  | jpV0Nnn nnn =>
    obtain ⟨hodd, rfl⟩ : (s.offsetTarget nnn).toNat % 2 = 1 ∧ v = s.offsetTarget nnn := by simpa [raises] using h
    exact ⟨hodd, nnn, .inr (.inr ⟨rfl, s.toNat_offsetTarget nnn⟩)⟩
  | _ => simp [raises] at h

theorem raisers_keyIndex (h : raises s (.fatal (.addressFault .keyIndex v)) i) :
    ∃ x, (i = .skpVx x ∨ i = .sknpVx x) ∧ v.toNat = (s.getV x).toNat ∧ 15 < v.toNat := by
  have reported {x : Reg} (hx : 15 < (s.getV x).toNat ∧
      StepOutcome.fatal (.addressFault .keyIndex v) = .fatal (.addressFault .keyIndex (zext16 (s.getV x)))) :
      v.toNat = (s.getV x).toNat ∧ 15 < v.toNat := by
    obtain ⟨habove, e⟩ := hx
    cases e
    rw [toNat_zext16_byte]
    exact ⟨rfl, habove⟩
  cases i with
  | skpVx x => exact ⟨x, .inl rfl, reported h⟩
  | sknpVx x => exact ⟨x, .inr rfl, reported h⟩
  | _ => simp [raises] at h

end Raisers

/-! ## Steps that do not return Ok -/

theorem fetchFault_eq_some {s : State} {f : FatalOutcome} (h : s.fetchFault = some f) :
    f = .addressFault .fetchRange s.pc ∨ f = .addressFault .fetchMisaligned s.pc := by
  rcases s.fetchFault_cases with ⟨-, e⟩ | ⟨-, -, e⟩ | ⟨-, -, e⟩
  · exact .inl (Option.some.inj (h.symm.trans e))
  · exact .inr (Option.some.inj (h.symm.trans e))
  · rw [h] at e; cases e

/-- A step that does not return Ok finishes with a fetch fault before PC moves, or after the advance with an outcome that is no
fetch fault, and has changed nothing else (R131, R135, R137). -/
theorem step_next_of_ne_ok {s t : State} (h : step s = .next t) (hne : t.outcome ≠ .ok) :
    s.latch = none ∧ ((∃ f, s.fetchFault = some f ∧ t = (s.setOutcome (.fatal f)).finish) ∨
      ∃ o : StepOutcome, (∀ v, o ≠ .fatal (.addressFault .fetchRange v) ∧ o ≠ .fatal (.addressFault .fetchMisaligned v)) ∧
        t = (s.advancePc.setOutcome o).finish) := by
  obtain ⟨hl, hfetch | ⟨-, op, -, rfl⟩ | ⟨-, i, u, -, hu, rfl⟩⟩ := step_next h
  · exact ⟨hl, .inl hfetch⟩
  · exact ⟨hl, .inr ⟨.unsupportedInstruction op, fun _ => ⟨nofun, nofun⟩, rfl⟩⟩
  · rw [State.finish_outcome] at hne
    rcases exec_next hu with ⟨-, rfl⟩ | ⟨o, hr, rfl⟩
    · exact absurd rfl hne
    · exact ⟨hl, .inr ⟨o, raises_ne_fetchFault hr, rfl⟩⟩

/-- All that the finish leaves of a raised outcome, as a record (R136). -/
theorem State.finish_setOutcome {s : State} (hl : s.latch = none) (o : StepOutcome) :
    (s.setOutcome o).finish = { s with outcome := o, prevKeys := s.keys, latch := o.fatal? } := by
  rw [State.finish_eq, State.setOutcome_latch, hl, Option.or_none]
  rfl

/-! ## The invariant along the host's transactions -/

/-- The invariant reads memory, PC, the stack, the latch and the outcome only. -/
theorem State.Inv.of_eq {s t : State} (h : s.Inv) (hmem : t.mem = s.mem := by rfl) (hpc : t.pc = s.pc := by rfl)
    (hstack : t.stack = s.stack ∧ t.sp = s.sp := by exact ⟨rfl, rfl⟩) (hlatch : t.latch = s.latch := by rfl)
    (houtcome : t.outcome = s.outcome := by rfl) : t.Inv where
  memCanonical := hmem ▸ h.memCanonical
  pcEven := hpc ▸ h.pcEven
  pcBounded := hpc ▸ h.pcBounded
  stackEven := h.coherent.stackReturns.of_eq hstack
  latchedOutcome f hf := houtcome.trans (h.latchedOutcome f (hlatch ▸ hf))

theorem constructEngine_pc (b : Build) (any : ArbitraryFill) (drawn : Nat) (m : Memory) :
    (constructEngine b any drawn m).pc = 512#16 := rfl

/-- A new engine starts at 0x200 with an empty stack and no latch, whatever the fill (R332). -/
theorem constructEngine_inv (b : Build) (any : ArbitraryFill) (drawn : Nat) {m : Memory} (hm : m.wf = true) :
    (constructEngine b any drawn m).Inv where
  memCanonical := hm
  pcEven := by rw [constructEngine_pc]; decide
  pcBounded := by rw [constructEngine_pc]; decide
  stackEven k hk := absurd hk (Nat.not_lt_zero _)
  latchedOutcome _ hf := nomatch hf

section Transactions
variable {b : Build} {y z : System} {o : HostOp} {r : Reply}

theorem systemInv_of_stepReply {s : State} (hinv : s.Inv) (h : stepReply s = .next (z, r)) : systemInv z := by
  rcases stepReply_cases s with ⟨t, ht, e⟩ | ⟨f, -, e⟩
  · rw [e] at h; cases h; exact step_inv hinv ht
  · rw [e] at h; cases h; exact hinv

theorem systemInv_of_runtimeOp {s : State} (hinv : s.Inv) (h : runtimeOp s o = .next (z, r)) : systemInv z := by
  cases o with
  | step => exact systemInv_of_stepReply hinv h
  | setKeys k => cases h; exact hinv.of_eq
  | tickTimers => cases h; exact hinv.of_eq
  | clearDrawFlag => cases h; exact hinv.of_eq
  | clearClearedFlag => cases h; exact hinv.of_eq
  | readSnapshot => cases h; exact hinv
  | load _ | constructMemory _ | constructEngine _ => cases h

theorem systemInv_of_bootOp {m : Memory} {drawn : Nat} (hm : m.wf = true) (h : bootOp b m drawn o = .next (z, r)) :
    systemInv z := by
  cases o with
  | load buffer => cases h; exact wf_load hm buffer
  | constructEngine any => cases h; exact constructEngine_inv b any drawn hm
  | _ => cases h

theorem systemInv_of_transact (hinv : systemInv y) (h : transact b y o = .next (z, r)) : systemInv z := by
  by_cases ho : ∃ any, o = .constructMemory any
  · obtain ⟨any, rfl⟩ := ho
    rw [transact_constructMemory] at h
    cases h
    exact wf_constructMemory b any
  · rw [not_exists] at ho
    cases y with
    | empty => rw [transact_empty b ho] at h; cases h
    | memory m drawn => exact systemInv_of_bootOp hinv (transact_memory b m drawn ho ▸ h)
    | engine s => exact systemInv_of_runtimeOp hinv (transact_engine b s ho ▸ h)

/-- A run that is not refused begins with a transaction that is answered. -/
theorem transactAll_cons_next {os : List HostOp} (h : transactAll b y (o :: os) = .next z) :
    ∃ w r, transact b y o = .next (w, r) ∧ transactAll b w os = .next z := by
  cases ho : transact b y o with
  | next p => exact ⟨p.1, p.2, rfl, transactAll_cons b y p.1 o p.2 os ho ▸ h⟩
  | fault f => simp [transactAll, ho] at h
  | refused f => simp [transactAll, ho] at h

theorem systemInv_of_transactAll {os : List HostOp} (hinv : systemInv y) (h : transactAll b y os = .next z) :
    systemInv z := by
  induction os generalizing y with
  | nil => cases h; exact hinv
  | cons o os ih =>
    obtain ⟨w, r, hfirst, hrest⟩ := transactAll_cons_next h
    exact ih (systemInv_of_transact hinv hfirst) hrest

end Transactions

/-! ## The statements -/

/-- Settles O58: construction and load give canonical memory, a new engine meets the invariant, and of the run-time
transactions only the step writes what the invariant reads. -/
theorem everyTransactionKeepsTheInvariant : Obligations.EveryTransactionKeepsTheInvariant :=
  ⟨trivial, fun _ _ _ _ _ => systemInv_of_transact⟩

/-- Settles O17, by induction on the transactions of the run. -/
theorem everyRunOfTheHostKeepsTheInvariant : Obligations.EveryRunOfTheHostKeepsTheInvariant := fun _ _ _ =>
  systemInv_of_transactAll (y := .empty) trivial

/-- Settles O11: the fetch check and the decoder answer on their own, and every instruction answers. -/
theorem everyUnlatchedStepAnswers : Obligations.EveryUnlatchedStepAnswers := by
  intro s hl
  rcases step_cases s with ⟨f, hlatched, -⟩ | ⟨-, f, -, e⟩ | ⟨-, -, op, -, e⟩ | ⟨-, hf, i, hd, -⟩
  · rw [hl] at hlatched; cases hlatched
  · exact ⟨_, e⟩
  · exact ⟨_, e⟩
  · obtain ⟨t, ht⟩ := exec_answers i s.advancePc
    exact ⟨t.finish, step_instr hl hf hd ht⟩

/-- Settles O12: a step that does not return Ok is the finish of one raised outcome, before or after the advance of PC. -/
theorem outcomesArePrecise : Obligations.OutcomesArePrecise := by
  intro s t h hne
  obtain ⟨hl, ⟨f, hf, rfl⟩ | ⟨o, ho, rfl⟩⟩ := step_next_of_ne_ok h hne
  · rw [State.finish_setOutcome hl]
    refine ⟨rfl, fun _ _ => rfl, fun hno => ?_⟩
    rcases fetchFault_eq_some hf with rfl | rfl
    · exact absurd rfl (hno s.pc).1
    · exact absurd rfl (hno s.pc).2
  · rw [State.finish_setOutcome (s := s.advancePc) hl]
    exact ⟨rfl, fun v hv => absurd hv (not_or.mpr (ho v)), fun _ => rfl⟩

/-- Settles O13: an outcome other than Ok is raised, and each has its raisers. -/
theorem outcomesAreRaisedByTheNamedInstructions : Obligations.OutcomesAreRaisedByTheNamedInstructions := by
  intro i s t h
  exact ⟨fun _ e => raisers_unsupportedInstruction (raises_of_exec h e nofun),
    fun e => raisers_stackOverflow (raises_of_exec h e nofun),
    fun e => raisers_stackUnderflow (raises_of_exec h e nofun),
    fun _ e => raisers_readRange (raises_of_exec h e nofun),
    fun _ e => raisers_writeRange (raises_of_exec h e nofun),
    fun _ e => raisers_misalignedTarget (raises_of_exec h e nofun),
    fun _ e => raisers_keyIndex (raises_of_exec h e nofun), exec_ne_fetchFault h⟩

/-- Settles O14: the codes are the rows of the tables of R300, R304 and R305. -/
theorem outcomeCodesAreTheSpecs : Obligations.OutcomeCodesAreTheSpecs :=
  ⟨rfl, fun _ => rfl, rfl, rfl, fun _ _ => rfl, rfl, rfl, rfl, rfl, rfl, rfl, rfl, rfl⟩

/-- Settles O57: each of the four is a run-time operation that is one record update, or none. -/
theorem hostOperationsChangeOnlyTheirOwn : Obligations.HostOperationsChangeOnlyTheirOwn := fun b s k =>
  ⟨transact_engine b s (o := .setKeys k) nofun, transact_engine b s (o := .clearDrawFlag) nofun,
    transact_engine b s (o := .clearClearedFlag) nofun, s.readSnapshot, transact_engine b s (o := .readSnapshot) nofun,
    rfl, rfl, rfl, rfl, rfl⟩

end Sys2Proof.Machine
end

section
/-! SUPPORT. Construction: the values of P_RESET_FILL, what constructed memory and a new engine hold, and from these the statement
on 70_reset_and_hazards.md. -/

namespace Sys2Proof.Machine

theorem ResetFill.choose_eq_ite {w : Nat} (f : ResetFill) (arbitrary : BitVec w) :
    ResetFill.choose f arbitrary = if f = .zero then 0 else arbitrary := by
  cases f <;> rfl

section Construction
variable (b : Build) (any : ArbitraryFill)

/-- The font stands in addresses 0 to 79, whatever the fill (R331). -/
theorem read_constructMemory_font (a : Fin 80) : (constructMemory b any).read a.val = b.font[a] :=
  (read_constructMemory b any (a.castLE (by decide))).trans (dif_pos a.isLt)

/-- Beyond the font stands the fill (R331). -/
theorem read_constructMemory_fill {a : Fin 4096} (ha : 80 ≤ a.val) :
    (constructMemory b any).read a.val = if b.resetFill = .zero then 0 else any.mem[a] := by
  rw [read_constructMemory, constructedByte, dif_neg (Nat.not_lt.mpr ha), ResetFill.choose_eq_ite]

theorem getV_constructEngine (drawn : Nat) (m : Memory) (x : Reg) :
    (constructEngine b any drawn m).getV x = if b.resetFill = .zero then 0 else any.v[x] := by
  unfold constructEngine State.getV
  cases b.resetFill with
  | zero => exact Vector.getElem_replicate x.isLt
  | arbitrary => rfl

theorem fb_constructEngine (drawn : Nat) (m : Memory) : (constructEngine b any drawn m).fb = Framebuffer.clear := rfl

/-- No key is down at construction, nor was one down before it (R332). -/
theorem keys_constructEngine (drawn : Nat) (m : Memory) (k : Key) :
    (constructEngine b any drawn m).keys[k] = false ∧ (constructEngine b any drawn m).prevKeys[k] = false :=
  ⟨Vector.getElem_replicate k.isLt, Vector.getElem_replicate k.isLt⟩

end Construction

/-- Settles O53: constructed memory is the font and then the fill, and a new engine has the fill in V, I, DT and ST and fixed values
in the rest. -/
theorem constructionLeavesTheSpecsValues : Obligations.ConstructionLeavesTheSpecsValues := by
  intro b any m drawn
  refine ⟨read_constructMemory_font b any, fun _ => read_constructMemory_fill b any, rfl, rfl, fun px py => ?pixels,
    getV_constructEngine b any drawn m, ResetFill.choose_eq_ite .., ResetFill.choose_eq_ite ..,
    ResetFill.choose_eq_ite .., keys_constructEngine b any drawn m, rfl, rfl, rfl, rfl⟩
  case pixels =>
    rw [fb_constructEngine]
    exact Framebuffer.getElem_clear px py

end Sys2Proof.Machine
end
